-- ==== Sys2Proof/Word.lean ====
section
/-! DEFINITION. The widths of UTFE: the byte, the 16-bit checksum and timeout word, the 7-bit id and command
code (spec/00_scope.md R7, R8). -/

namespace Sys2Proof

/-- A byte: 8 bits, bit 0 the least significant (R7). -/
abbrev Byte := BitVec 8

/-- A 16-bit value: the checksum (`CRC_WIDTH`) and the timeout (`T_WIDTH`) of R6. -/
abbrev Word := BitVec 16

/-- A 7-bit field: `len`, `cmd`, the CAN-form `id` (30_encoding.md R72, R76). -/
abbrev Field7 := BitVec 7

end Sys2Proof
end

