-- ==== Sys2Proof/Config.lean ====
section
/-! DEFINITION. The parameters of UTFE (spec/00_scope.md R6): the values the source states or a fixed layout
forces are constants, every other parameter is a field of the record `Config`. -/

namespace Sys2Proof

/-- `WILDCARD_RS` = 0x55 (R6, R82). -/
abbrev wildcardRs : Byte := 0x55

/-- `NEGOTIATE_CMD` = 0x7F, used by the host only (R6, R232). -/
abbrev negotiateCmd : Field7 := 0x7F

/-- `CAN_SYNC` = 0xAA (R6, R76). -/
abbrev canSync : Byte := 0xAA

/-- `RS_DATA_MAX` = 125 bytes of payload (R6, R80). -/
abbrev rsDataMax : Nat := 125

/-- `RS_LEN_MAX` = `RS_DATA_MAX` + 1 (R6, R80). -/
abbrev rsLenMax : Nat := 126

/-- `CAN_DATA_MAX` = 7 bytes of payload (R6, R80). -/
abbrev canDataMax : Nat := 7

/-- `CAN_LEN_MAX` = `CAN_DATA_MAX` + 1 (R6, R80). -/
abbrev canLenMax : Nat := 8

/-- The configuration record of R6. A state carries one; every step reads it and none writes it, so that a
statement about every state is a statement about every configuration. `TICK_PERIOD` is not in it: no rule
depends on it (R189) and real time is not modelled. `DEC_ATTACHED` is `Machine.State.decAttached`, sampled at
reset (R295). -/
structure Config where
  /-- `CRC_POLY_R` (R101). -/
  crcPolyR : Word
  /-- `CRC_INIT` (R101). -/
  crcInit : Word
  /-- `CRC_XOROUT` (R101). -/
  crcXorOut : Word
  /-- `CRC_LOW_FIRST`: the low byte of the checksum is the first on the wire (R103). -/
  crcLowFirst : Bool
  /-- `WILDCARD_CAN` (R82). -/
  wildcardCan : Field7
  /-- `DEC_LEN_CAP` (R154). -/
  decLenCap : Nat
  /-- `Q_CAP` (R181). -/
  qCap : Nat
  /-- `ITEM_MAX` (R183). -/
  itemMax : Nat
  /-- `T_DEFAULT` (R227). -/
  tDefault : Word
  /-- `HS_TIMEOUT` (R232). -/
  hsTimeout : Word
  /-- `HS_TRIES` (R232). -/
  hsTries : Nat
  /-- `HS_RW` (R232). -/
  hsRw : Bool
  /-- `HS_DATA` (R232). -/
  hsData : List Byte
  /-- `HOST_ID`, the host's own id: `own_id` of R220 is this parameter and no second register. -/
  hostId : Byte
  deriving DecidableEq, Repr

/-- `RXBUF_SIZE` = `DEC_LEN_CAP` + 5 (R6, R71). -/
abbrev Config.rxbufSize (c : Config) : Nat := c.decLenCap + 5

/-- The constraints that R6 puts on the parameters. -/
abbrev Config.Ok (c : Config) : Prop :=
  1 ≤ c.decLenCap ∧ c.decLenCap ≤ 127 ∧ 1 ≤ c.qCap ∧ c.rxbufSize ≤ c.itemMax ∧ c.itemMax ≤ 255 ∧
    1 ≤ c.hsTries

/-- The values R6 gives. The checksum parameters are the CRC-16/MODBUS set that R6 and R101 state (log 18).
For the OPEN parameters, which R6 leaves to the model's user: `Q_CAP` and `HS_TRIES` as R6 suggests, the rest
as the vectors of 95_test_vectors.md use them. DESIGN CHOICE, unsafe: log 1. -/
def Config.suggested : Config where
  crcPolyR := 0xA001
  crcInit := 0xFFFF
  crcXorOut := 0x0000
  crcLowFirst := true
  wildcardCan := 0x55
  decLenCap := 126
  qCap := 8
  itemMax := 255
  tDefault := 10
  hsTimeout := 5
  hsTries := 2
  hsRw := true
  hsData := []
  hostId := 0x0A

/-- FREE VALUE: how many slots the `k`-th GET_RANGE called with `start_id > end_id` opens. R230 requires the
opposite and states no result there; nothing constrains this number. DESIGN CHOICE: log 15. -/
opaque Config.freeSlots : Nat → Nat

end Sys2Proof
end

