-- ==== Sys2Proof/Syntax.lean ====
section
/-! DEFINITION. The instructions of UTFE: one constructor per row of spec/opcode_table.json. Commands and events
keep their operand bytes as they stand on the port (spec/30_encoding.md R85 to R89), must-be-zero bits
included; host procedures take their arguments as values (R90). -/

namespace Sys2Proof

/-- A length of a register descriptor: a count of data bytes, or "variable", then supplied at call time
(44_host_client.md R221, R222). -/
inductive DescLen where
  | fixed (n : Nat)
  | var
  deriving DecidableEq, Repr

/-- The register descriptor of R221. -/
structure Descriptor where
  cmd : Field7
  readReqLen : DescLen
  readRespLen : DescLen
  writeReqLen : DescLen
  writeRespLen : DescLen
  deriving DecidableEq, Repr

/-- Where an instruction enters: the command port, the RX port, the tick input, or a call of a host procedure
(R84, R89, R90). -/
inductive Port where
  | command
  | rx
  | tick
  | call
  deriving DecidableEq, Repr

inductive Instr where
  -- the command port (R86)
  | crcClr
  | crcUpd (b : Byte)
  | crcGet
  | crcBuf (bytes : List Byte)
  | packRs (frm dst fl cmd : Byte) (data : List Byte)
  | packCan (id fl cmd : Byte) (data : List Byte)
  | unpackRs (exp0 exp1 : Byte) (bytes : List Byte)
  | unpackCan (exp : Byte) (bytes : List Byte)
  | qRead (tHi tLo : Byte)
  | flush (fl frm dst : Byte)
  | txWrite (bytes : List Byte)
  | close
  | isErr
  -- the events of the other ports (R89)
  | rxChunk (bytes : List Byte)
  | decFeed (b : Byte)
  | ioErr
  | tick
  -- the host procedures (R90)
  | connectTo (targetId : Byte) (auxId : Nat)
  | send (rw : Bool) (d : Descriptor) (payload : List Byte)
  /-- `timeout = none` is the omitted argument: `T_DEFAULT` (R227). -/
  | pend (rw : Bool) (d : Descriptor) (timeout : Option Word)
  | getRange (d : Descriptor) (startId endId : Byte)
  | connectDevice
  deriving DecidableEq, Repr

end Sys2Proof
end

