-- ==== Sys2Proof/WellFormed.lean ====
section
/-! DEFINITION. Which instructions can be spelled: a payload is counted by one byte (spec/30_encoding.md R85,
R87). A must-be-zero bit that is 1 does NOT make an instruction ill-formed: such a command has a spelling and a
meaning, the status ILL (R92). Nor does a reversed range, which is data of a call (44_host_client.md R230; log 15). -/

namespace Sys2Proof

/-- A payload whose length the one-byte operand `n` can carry (R87). -/
abbrev payloadOk (bytes : List Byte) : Prop := bytes.length ≤ 255

/-- The well-formed instructions. -/
def Instr.WellFormed : Instr → Prop
  | .crcBuf bytes | .txWrite bytes | .rxChunk bytes => payloadOk bytes
  | .packRs _ _ _ _ data => payloadOk data
  | .packCan _ _ _ data => payloadOk data
  | .unpackRs _ _ bytes => payloadOk bytes
  | .unpackCan _ bytes => payloadOk bytes
  | .crcClr | .crcUpd _ | .crcGet | .qRead _ _ | .flush _ _ _ | .close | .isErr => True
  | .decFeed _ | .ioErr | .tick => True
  | .connectTo _ _ | .send _ _ _ | .pend _ _ _ | .getRange _ _ _ | .connectDevice => True

end Sys2Proof
end

