-- ==== Sys2Proof/Decode.lean ====
section
/-! DEFINITION. The decoder (total on any bytes, rejecting by name) and the encoder of the command formats
(spec/30_encoding.md R85 to R92). Both are written from the tables of R86, R89 and R90. -/

namespace Sys2Proof

/-- What the decoder finds at the head of a byte string. -/
inductive Decoded where
  /-- an instruction, and the bytes after it -/
  | ok (i : Instr) (rest : List Byte)
  /-- a code that the port's table does not have (R92: it consumes the one code byte) -/
  | undefinedCode (code : Byte) (rest : List Byte)
  /-- the bytes end before the instruction does -/
  | incomplete
  deriving DecidableEq, Repr

/-- The values a caller passes to a host procedure (R90: "passed as values by the caller and have no byte
layout"); each procedure takes the ones it has. -/
structure CallArgs where
  targetId : Byte := 0
  auxId : Nat := 0
  rw : Bool := false
  desc : Descriptor := ⟨0, .fixed 0, .fixed 0, .fixed 0, .fixed 0⟩
  payload : List Byte := []
  timeout : Option Word := none
  startId : Byte := 0
  endId : Byte := 0
  deriving DecidableEq, Repr

/-- `n` payload bytes and what follows them; `none` while they have not all come. -/
def splitPayload (n : Byte) (bytes : List Byte) : Option (List Byte × List Byte) :=
  if n.toNat ≤ bytes.length then some (bytes.take n.toNat, bytes.drop n.toNat) else none

/-- One operand byte, and what follows from it. -/
def takeByte (bytes : List Byte) (next : Byte → List Byte → Decoded) : Decoded :=
  match bytes with
  | b :: rest => next b rest
  | [] => .incomplete

/-- The count byte and the payload that end an instruction (formats V1 to V5 of R85). -/
def takePayload (bytes : List Byte) (mk : List Byte → Instr) : Decoded :=
  takeByte bytes fun n r =>
    match splitPayload n r with
    | some (payload, rest) => .ok (mk payload) rest
    | none => .incomplete

/-- A command's operands after its opcode (R86): thirteen opcodes, every other one undefined, the codes of R89
and R90 among them. -/
def decodeOperands (op : Byte) (r : List Byte) : Decoded :=
  match op with
  | 0x01 => .ok .crcClr r
  | 0x02 => takeByte r fun b r => .ok (.crcUpd b) r
  | 0x03 => .ok .crcGet r
  | 0x04 => takePayload r .crcBuf
  | 0x10 =>
    takeByte r fun frm r => takeByte r fun dst r => takeByte r fun fl r => takeByte r fun cmd r =>
      takePayload r (.packRs frm dst fl cmd)
  | 0x11 =>
    takeByte r fun id r => takeByte r fun fl r => takeByte r fun cmd r => takePayload r (.packCan id fl cmd)
  | 0x12 =>
    takeByte r fun exp0 r => takeByte r fun exp1 r => takePayload r (.unpackRs exp0 exp1)
  | 0x13 => takeByte r fun exp r => takePayload r (.unpackCan exp)
  | 0x20 => takeByte r fun tHi r => takeByte r fun tLo r => .ok (.qRead tHi tLo) r
  | 0x21 =>
    takeByte r fun fl r => takeByte r fun frm r => takeByte r fun dst r => .ok (.flush fl frm dst) r
  | 0x22 => takePayload r .txWrite
  | 0x23 => .ok .close r
  | 0x24 => .ok .isErr r
  | _ => .undefinedCode op r

/-- The command port. -/
def decodeCommand (bytes : List Byte) : Decoded := takeByte bytes decodeOperands

/-- The events of the RX port (R89). -/
def decodeRx (bytes : List Byte) : Decoded :=
  takeByte bytes fun code r =>
    match code with
    | 0x30 => takePayload r .rxChunk
    | 0x31 => takeByte r fun b r => .ok (.decFeed b) r
    | 0x32 => .ok .ioErr r
    | _ => .undefinedCode code r

/-- The event of the tick input (R89). -/
def decodeTick (bytes : List Byte) : Decoded :=
  takeByte bytes fun code r =>
    match code with
    | 0x3F => .ok .tick r
    | _ => .undefinedCode code r

/-- A call of a host procedure (R90): the code byte alone, and the caller's values. -/
def decodeCall (a : CallArgs) (bytes : List Byte) : Decoded :=
  takeByte bytes fun code r =>
    match code with
    | 0x40 => .ok (.connectTo a.targetId a.auxId) r
    | 0x41 => .ok (.send a.rw a.desc a.payload) r
    | 0x42 => .ok (.pend a.rw a.desc a.timeout) r
    | 0x43 => .ok (.getRange a.desc a.startId a.endId) r
    | 0x44 => .ok .connectDevice r
    | _ => .undefinedCode code r

/-- The decoder of one port. -/
def decode (p : Port) (a : CallArgs) (bytes : List Byte) : Decoded :=
  match p with
  | .command => decodeCommand bytes
  | .rx => decodeRx bytes
  | .tick => decodeTick bytes
  | .call => decodeCall a bytes

/-- The port that an instruction enters by. -/
def Instr.port : Instr → Port
  | .crcClr | .crcUpd _ | .crcGet | .crcBuf _ => .command
  | .packRs _ _ _ _ _ | .packCan _ _ _ _ | .unpackRs _ _ _ | .unpackCan _ _ => .command
  | .qRead _ _ | .flush _ _ _ | .txWrite _ | .close | .isErr => .command
  | .rxChunk _ | .decFeed _ | .ioErr => .rx
  | .tick => .tick
  | .connectTo _ _ | .send _ _ _ | .pend _ _ _ | .getRange _ _ _ | .connectDevice => .call

/-- The code of an instruction (R86, R89, R90). -/
def Instr.code : Instr → Byte
  | .crcClr => 0x01
  | .crcUpd _ => 0x02
  | .crcGet => 0x03
  | .crcBuf _ => 0x04
  | .packRs _ _ _ _ _ => 0x10
  | .packCan _ _ _ _ => 0x11
  | .unpackRs _ _ _ => 0x12
  | .unpackCan _ _ => 0x13
  | .qRead _ _ => 0x20
  | .flush _ _ _ => 0x21
  | .txWrite _ => 0x22
  | .close => 0x23
  | .isErr => 0x24
  | .rxChunk _ => 0x30
  | .decFeed _ => 0x31
  | .ioErr => 0x32
  | .tick => 0x3F
  | .connectTo _ _ => 0x40
  | .send _ _ _ => 0x41
  | .pend _ _ _ => 0x42
  | .getRange _ _ _ => 0x43
  | .connectDevice => 0x44

/-- A one-byte count (R87). -/
def countByte (bytes : List Byte) : Byte := BitVec.ofNat 8 bytes.length

/-- The operand bytes after the code, payload included. -/
def Instr.operandBytes : Instr → List Byte
  | .crcUpd b => [b]
  | .crcBuf bytes => countByte bytes :: bytes
  | .packRs frm dst fl cmd data => frm :: dst :: fl :: cmd :: countByte data :: data
  | .packCan id fl cmd data => id :: fl :: cmd :: countByte data :: data
  | .unpackRs exp0 exp1 bytes => exp0 :: exp1 :: countByte bytes :: bytes
  | .unpackCan exp bytes => exp :: countByte bytes :: bytes
  | .qRead tHi tLo => [tHi, tLo]
  | .flush fl frm dst => [fl, frm, dst]
  | .txWrite bytes => countByte bytes :: bytes
  | .rxChunk bytes => countByte bytes :: bytes
  | .decFeed b => [b]
  | .crcClr | .crcGet | .close | .isErr | .ioErr | .tick => []
  | .connectTo _ _ | .send _ _ _ | .pend _ _ _ | .getRange _ _ _ | .connectDevice => []

/-- The encoder: the bytes of an instruction on its port. -/
def encode (i : Instr) : List Byte := i.code :: i.operandBytes

/-- The values the caller passes with the code byte of a host procedure (R90). -/
def Instr.callArgs : Instr → CallArgs
  | .connectTo targetId auxId => { targetId := targetId, auxId := auxId }
  | .send rw d payload => { rw := rw, desc := d, payload := payload }
  | .pend rw d timeout => { rw := rw, desc := d, timeout := timeout }
  | .getRange d startId endId => { desc := d, startId := startId, endId := endId }
  | .crcClr | .crcUpd _ | .crcGet | .crcBuf _ => {}
  | .packRs _ _ _ _ _ | .packCan _ _ _ _ | .unpackRs _ _ _ | .unpackCan _ _ => {}
  | .qRead _ _ | .flush _ _ _ | .txWrite _ | .close | .isErr => {}
  | .rxChunk _ | .decFeed _ | .ioErr | .tick | .connectDevice => {}

/-- The port whose table has a code (R86, R89, R90); a code of no table belongs to the command port, which
answers ILL to it (R92). -/
def portOfCode (code : Byte) : Port :=
  if code = 0x30 ∨ code = 0x31 ∨ code = 0x32 then .rx
  else if code = 0x3F then .tick
  else if 0x40 ≤ code.toNat ∧ code.toNat ≤ 0x44 then .call
  else .command

/-- `count` bytes of the number `w`, the least significant first. -/
def bytesOfNat : Nat → Nat → List Byte
  | 0, _ => []
  | count + 1, w => BitVec.ofNat 8 w :: bytesOfNat count (w / 256)

/-- The longest instruction is PACK.RS with 255 payload bytes. -/
def maxInstrBytes : Nat := 261

/-- The bytes of the number `w` of `nbits` bits, every bit above them 0, up to the longest instruction. -/
def wordBytes (nbits w : Nat) : List Byte := bytesOfNat maxInstrBytes (w % 2 ^ nbits)

/-- The port by which the bytes of a table row enter. -/
def wordPort (nbits w : Nat) : Port := portOfCode ((wordBytes nbits w).getD 0 0)

/-- The instruction that the decoder reads from a table row's bits; a host procedure is called with the
default values of `CallArgs`. -/
def decodeTableWord (nbits w : Nat) : Option Instr :=
  match decode (wordPort nbits w) {} (wordBytes nbits w) with
  | .ok i _ => some i
  | .undefinedCode _ _ => none
  | .incomplete => none

end Sys2Proof
end

