-- ==== Sys2Proof/Machine/State.lean ====
section
/-! DEFINITION. The state of UTFE and of the agents around it, as plain data, the reasons a step can stop, and
the state after reset (spec/10_state.md R41, 44_host_client.md R220, 70_reset_and_hazards.md R291). -/

namespace Sys2Proof.Machine

/-- The parse cursor S5 `DSTATE` (R28). -/
inductive DState where
  | awaitFrom
  | awaitTo
  | awaitLen
  | awaitData
  | awaitCrc1
  | awaitCrc2
  deriving DecidableEq, Repr

/-- The statuses of 60_exceptions.md R250; codes 13 and 14 are never produced and have no constructor. -/
inductive Status where
  | ok
  | len
  | head
  | mId
  | sId
  | crc
  | rw
  | cmd
  | state
  | timeout
  | connect
  | dead
  | none
  | ill
  deriving DecidableEq, Repr

/-- A logical RS-form frame (30_encoding.md R83). -/
structure FrameRS where
  frm : Byte
  dst : Byte
  state : Bool
  rw : Bool
  cmd : Field7
  data : List Byte
  deriving DecidableEq, Repr

/-- A logical CAN-form frame (R83). -/
structure FrameCAN where
  id : Field7
  state : Bool
  rw : Bool
  cmd : Field7
  data : List Byte
  deriving DecidableEq, Repr

/-- A frame of either wire variant, as the host's PEND returns it (R227). -/
inductive Frame where
  | rs (f : FrameRS)
  | can (f : FrameCAN)
  deriving DecidableEq, Repr

/-- What a command answers: its status and, only when it is OK, result bytes (R85, R88). -/
structure Reply where
  status : Status
  result : List Byte
  deriving DecidableEq, Repr

/-- A response on the response port, with the opcode of the command it answers (the model's label: R84 returns
responses in command order, but for a read that pended). -/
structure Response where
  opcode : Byte
  reply : Reply
  deriving DecidableEq, Repr

/-- S13, the pending response channel (R40 (c)): idle, or owed to a Q.READ of the command port, or owed to the
Q.READ of the host procedure in progress. The spec's one bit is "not idle" (log 10). -/
inductive RespChan where
  | idle
  | commandPort
  | client
  deriving DecidableEq, Repr

/-- The wire variant a device speaks (44_host_client.md R220). -/
inductive Form where
  | rs
  | can
  deriving DecidableEq, Repr

/-- What a host procedure does next: the UTFE command it is about to issue with the values it has in hand
(R223, R225, R227), or the wait for the response of its Q.READ. -/
inductive Stage where
  /-- CONNECT_TO: set the template and issue FLUSH -/
  | connectFlush (targetId : Byte) (auxId : Nat)
  /-- SEND: issue IS.ERR, then size the request -/
  | sendQuery (rw : Bool) (d : Descriptor) (payload : List Byte)
  /-- SEND: issue PACK.RS or PACK.CAN -/
  | sendPack (rw : Bool) (d : Descriptor) (data : List Byte)
  /-- SEND: issue TX.WRITE -/
  | sendWrite (frame : List Byte)
  /-- PEND: issue Q.READ -/
  | pendRead (rw : Bool) (d : Descriptor) (timeout : Word)
  /-- PEND: the Q.READ pends; take its response -/
  | pendWait (rw : Bool) (d : Descriptor)
  /-- PEND: issue UNPACK.RS or UNPACK.CAN on the item -/
  | pendUnpack (rw : Bool) (d : Descriptor) (item : List Byte)
  deriving DecidableEq, Repr

/-- One slot of GET_RANGE's result (R230). -/
structure Slot where
  status : Status
  payload : List Byte
  deriving DecidableEq, Repr

/-- Inside which procedure a CONNECT_TO, SEND or PEND runs, and so where its result goes (R224, R230, R232). -/
inductive Ctx where
  /-- called by the caller itself; `code` is the procedure's code of R90 -/
  | top (code : Byte)
  /-- GET_RANGE: the CONNECT_TO to the wildcard -/
  | rangeOpen (d : Descriptor) (saved : Byte) (count : Nat)
  /-- GET_RANGE: the one SEND -/
  | rangeSend (d : Descriptor) (saved : Byte) (count : Nat)
  /-- GET_RANGE: the PEND of the first of `left` slots still open; `done` are the slots filled -/
  | rangePend (d : Descriptor) (saved : Byte) (left : Nat) (done : List Slot)
  /-- GET_RANGE: the CONNECT_TO back to the saved target -/
  | rangeClose (done : List Slot)
  /-- CONNECT_DEVICE: the CONNECT_TO to the wildcard -/
  | deviceOpen
  /-- CONNECT_DEVICE: the SEND of an attempt; `left` counts it and the attempts after it -/
  | deviceSend (left : Nat)
  /-- CONNECT_DEVICE: the PEND of an attempt -/
  | devicePend (left : Nat)
  deriving DecidableEq, Repr

/-- A host procedure in progress. -/
structure Proc where
  ctx : Ctx
  stage : Stage
  deriving DecidableEq, Repr

/-- What a finished procedure has returned to its caller (R223, R225, R227, R230, R232). -/
inductive CallResult where
  | status (code : Byte) (s : Status) (frame : Option Frame)
  | range (slots : List Slot)
  deriving DecidableEq, Repr

/-- The host agent's state: R220's template and lock, the procedure in progress, and the model's own fields
for the callers around it. R220's `own_id` is the parameter `HOST_ID` (`Config.hostId`). -/
structure Client where
  form : Form
  targetId : Byte
  auxId : Nat
  tstate : Bool
  /-- the exclusive lock of R224 -/
  lock : Bool
  /-- the holder's SEND has returned OK and its PEND has not returned: the lock spans the pair (R224; log 12) -/
  pair : Bool
  proc : Option Proc
  /-- MODEL: the deferred response on its way to the waiting PEND -/
  inbox : Option Reply
  /-- MODEL: the caller that makes the calls which come next (log 12) -/
  caller : Nat
  /-- MODEL: the caller that holds the lock, or held it last (log 12) -/
  holder : Nat
  /-- MODEL: the callers blocked on the lock, each with the procedure it called -/
  waiting : List (Nat × Instr)
  /-- MODEL: the results returned so far, oldest first -/
  results : List CallResult
  deriving DecidableEq, Repr

/-- One thing the environment does to the machine (log 4). -/
inductive Stim where
  /-- bytes at a port: commands, or events and calls in the codes of R89 and R90 -/
  | msg (port : Port) (args : CallArgs) (bytes : List Byte)
  /-- the reset input, with the level of the `DEC_ATTACHED` input that it samples (R290 to R295) -/
  | reset (decAttached : Bool)
  /-- a caller selects the wire variant and sets the template's state bit (R220) -/
  | template (form : Form) (tstate : Bool)
  /-- the calls that come next are made by this one of the "arbitrarily many caller threads" (R11; log 12) -/
  | caller (k : Nat)
  /-- what falls in one clock cycle: performed in the order of 60_exceptions.md R262 (log 6) -/
  | cycle (instrs : List Instr)
  deriving DecidableEq, Repr

/-- Which agent takes the next step (R11, R12; log 5). -/
inductive Turn where
  /-- the environment delivers the next stimulus -/
  | input
  /-- the command port accepts the command at its head -/
  | port
  /-- the RX agent feeds the next byte of its chunk -/
  | rx
  /-- the host procedure in progress issues its next command -/
  | client
  /-- the `k`-th waiting caller acquires the lock -/
  | caller (k : Nat)
  deriving DecidableEq, Repr

/-- Why the machine stops with a fault. -/
inductive Fault where
  /-- Raised by DEC.FEED when `RXN` is not an offset of `RXBUF` (20_memory.md R53 says that it always is, so
  no state that meets the invariant raises it). Safe: the model stops. -/
  | rxbufRange
  deriving DecidableEq, Repr

/-- Why the model gives a step no meaning. -/
inductive Refusal where
  /-- Raised by `exec` for an instruction without a meaning in this model. Safe. -/
  | notModelled (mnemonic : String)
  /-- Raised by DEC.FEED before a FLUSH with both update bits set has completed since reset
  (10_state.md R26: "has no defined meaning, and a model refuses it"; 70_reset_and_hazards.md R296, R297: "has no
  defined behaviour. The model refuses it"; log 2). Safe. -/
  | expectationsUnwritten
  /-- Raised by RX.CHUNK on the raw path for a chunk over `ITEM_MAX` (93_implementation_defined.md U16:
  "refuse: cannot be spelled"). Safe. -/
  | chunkOverItemMax
  /-- Raised by the step when a stimulus at a port other than the command port spells no instruction of that
  port: no hardware decodes those codes (30_encoding.md R89, R90), so it stands for nothing. Safe. -/
  | notAnEvent (code : Byte)
  /-- Raised by the step when a stimulus at a port other than the command port ends inside an instruction.
  Safe. -/
  | truncatedEvent
  deriving DecidableEq, Repr

/-- The whole state. -/
structure State where
  /-- the parameters of R6; no step writes them -/
  cfg : Config
  /-- S1 `CRC` (R21) -/
  crc : Word
  /-- S2 `RXBUF` (R22): offset and byte, offsets rising, zero bytes unlisted -/
  rxbuf : List Host.Cell
  /-- S3 `RXN` (R23) -/
  rxn : BitVec 8
  /-- S4 `DREM` (R24) -/
  drem : BitVec 7
  /-- S5 `DSTATE` (R28) -/
  dstate : DState
  /-- S6 `DEAD` (R30) -/
  dead : Bool
  /-- S7 `RD_PEND` (R31) -/
  rdPend : Bool
  /-- S8 `EXP_FROM` (R32) -/
  expFrom : Byte
  /-- S9 `EXP_TO` (R33) -/
  expTo : Byte
  /-- a FLUSH with both update bits set has completed since reset (R26, R296; log 2) -/
  expSet : Bool
  /-- S10 `RD_TMR` (R34) -/
  rdTmr : Word
  /-- S11 `DEC_ATTACHED` (R36) -/
  decAttached : Bool
  /-- S12 `Q` (R38), the oldest item first -/
  q : List (List Byte)
  /-- S13 the pending response channel (R40) -/
  respChan : RespChan
  /-- the bytes on the command port not yet accepted as a command; none when the parser is idle (R291) -/
  port : List Byte
  /-- the host agent (R220) -/
  client : Client
  /-- MODEL: how many free values have been drawn (`Config.freeSlots`, log 15) -/
  draws : Nat
  /-- MODEL: the bytes of the chunk in delivery that are not yet fed (R12, R182) -/
  rxRest : List Byte
  /-- MODEL: what the environment will do, in order -/
  inp : List Stim
  /-- MODEL: whose turn it is; empty means the default order -/
  sched : List Turn
  /-- MODEL: the response port's output, oldest first -/
  resp : List Response
  /-- MODEL: the TX port's output, oldest first -/
  tx : List Byte
  deriving DecidableEq, Repr

/-- The machine right after reset (R291, R41). Where the spec gives no value: `expFrom`, `expTo` (log 2), the
bytes of `rxbuf` (log 3), the OPEN parameters of `cfg` and `decAttached` (log 1), the host's template and
lock (log 13). -/
def State.reset : State where
  cfg := Config.suggested
  crc := 0xFFFF
  rxbuf := []
  rxn := 0
  drem := 0
  dstate := .awaitFrom
  dead := false
  rdPend := false
  expFrom := 0
  expTo := 0
  expSet := false
  rdTmr := 0
  decAttached := true
  q := []
  respChan := .idle
  port := []
  client :=
    { form := .rs
      targetId := 0
      auxId := 0
      tstate := false
      lock := false
      pair := false
      proc := none
      inbox := none
      caller := 0
      holder := 0
      waiting := []
      results := [] }
  draws := 0
  rxRest := []
  inp := []
  sched := []
  resp := []
  tx := []

end Sys2Proof.Machine
end

