-- ==== Sys2Proof/Machine/Operands.lean ====
section
/-! DEFINITION. The fields of operand bytes and of packed wire bytes (spec/30_encoding.md R72, R76, R81, R87), the
timeout operand, id matching (R82), and the response's status byte (60_exceptions.md R250). -/

namespace Sys2Proof.Machine

/-- Bit 7 of a packed byte: `state` or `rw`, or a must-be-zero bit (R81, R87). -/
def hiBit (b : Byte) : Bool := b.getLsbD 7

/-- Bits 6 to 0 of a packed byte: `len`, `cmd` or `id` (R81). -/
def low7 (b : Byte) : Field7 := b.setWidth 7

/-- Bits 3 to 0: the CAN-form `len` (R78). -/
def low4 (b : Byte) : BitVec 4 := b.setWidth 4

/-- The packed byte `(x:1, y:7)`, `x` in bit 7 (R8, R81). -/
def packByte (x : Bool) (y : Field7) : Byte := BitVec.ofBool x ++ y

/-- `fl` = `{000000, state, rw}` (R87, R88); also `{000000, upd_to, upd_from}`. -/
def flByte (bit1 bit0 : Bool) : Byte := (0#6 ++ BitVec.ofBool bit1) ++ BitVec.ofBool bit0

/-- Bit 1 of `fl`: `state`, or `upd_to` (R87). -/
def flBit1 (fl : Byte) : Bool := fl.getLsbD 1

/-- Bit 0 of `fl`: `rw`, or `upd_from` (R87). -/
def flBit0 (fl : Byte) : Bool := fl.getLsbD 0

/-- A must-be-zero bit of `fl`, bits 7 to 2, is 1 (R87). -/
def flIllegal (fl : Byte) : Bool := fl.extractLsb' 2 6 != 0#6

/-- A 7-bit value in a byte whose bit 7 is 0 (R87, R88). -/
def byte7 (v : Field7) : Byte := v.setWidth 8

/-- The timeout `T = {t_hi, t_lo}` (R87). -/
def timeoutOf (tHi tLo : Byte) : Word := tHi ++ tLo

/-- `id_match(b, e, w)` (R82). -/
def idMatch {n : Nat} (b e w : BitVec n) : Bool := b == e || b == w || e == w

/-- The status codes of R250. -/
def Status.code : Status → BitVec 4
  | .ok => 0
  | .len => 1
  | .head => 2
  | .mId => 3
  | .sId => 4
  | .crc => 5
  | .rw => 6
  | .cmd => 7
  | .state => 8
  | .timeout => 9
  | .connect => 10
  | .dead => 11
  | .none => 12
  | .ill => 15

/-- The bytes of a response: `{0000, status[3:0]}`, then the result bytes (R85). -/
def Reply.bytes (r : Reply) : List Byte := r.status.code.setWidth 8 :: r.result

/-- `respond(S, bytes...)` of 00_scope.md R9. -/
def respond (status : Status) (result : List Byte) : Reply := ⟨status, result⟩

/-- `raise S` of R9: status `S`, no result bytes. -/
def raise (status : Status) : Reply := ⟨status, []⟩

/-- The request length of a descriptor for a payload, or `none` when the payload does not fit a fixed length
(44_host_client.md R222). -/
def requestLength (d : Descriptor) (rw : Bool) (payload : List Byte) : Option Nat :=
  match if rw then d.writeReqLen else d.readReqLen with
  | .var => some payload.length
  | .fixed n => if payload.length = n then some n else none

end Sys2Proof.Machine
end

