-- ==== Sys2Proof/Machine/Flags.lean ====
section
/-! DEFINITION. The two flags of UTFE and the timer beside them: `DEAD`, `RD_PEND` and `RD_TMR`
(spec/10_state.md R30, R31, R34, R40). UTFE has no condition codes (R31). -/

namespace Sys2Proof.Machine

/-- The response port returns `r` to the command with this opcode (R84). -/
def reply (opcode : Byte) (r : Reply) (s : State) : State :=
  { s with resp := s.resp ++ [⟨opcode, r⟩] }

/-- A Q.READ that finds the queue empty pends for `t` ticks; `who` will receive the response (R186, R40). -/
def armRead (who : RespChan) (t : Word) (s : State) : State :=
  { s with rdPend := true, rdTmr := t, respChan := who }

/-- The pending Q.READ completes with `r`: the flag, the timer and the channel are cleared and the response
goes to whoever the channel names (R31, R181, R189, R195, R196). -/
def completeRead (r : Reply) (s : State) : State :=
  { s with
    rdPend := false
    rdTmr := 0
    respChan := .idle
    resp := if s.respChan = .idle then s.resp else s.resp ++ [⟨0x20, r⟩]
    client := if s.respChan = .client then { s.client with inbox := some r } else s.client }

/-- One tick of the timer (R189). -/
def tickTimer (s : State) : State :=
  if s.rdPend then
    let t := { s with rdTmr := s.rdTmr - 1 }
    if t.rdTmr = 0 then completeRead (raise .none) t else t
  else s

end Sys2Proof.Machine
end

