-- ==== Sys2Proof/Machine/Ops.lean ====
section
/-! DEFINITION. The named operations over the buffers and the queue: reading and writing RXBUF, emptying the
decoder, `q_push`, emission on the TX port, and the entry into the terminal condition, which is what UTFE has in
the place of taking an exception (spec/60_exceptions.md R263, R264). There is no return from it but reset (R265). -/

namespace Sys2Proof.Machine

/-- One byte of RXBUF; an offset that is not listed reads 0x00 (log 3). -/
def readByte : List Host.Cell → Nat → Byte
  | [], _ => 0
  | (k, v) :: m, a => if k = a then v else readByte m a

/-- Store one byte, keeping the canonical form: offsets rising, zero bytes not listed. -/
def writeByte : List Host.Cell → Nat → Byte → List Host.Cell
  | [], a, b => if b = 0 then [] else [(a, b)]
  | (k, v) :: m, a, b =>
    if a < k then (if b = 0 then (k, v) :: m else (a, b) :: (k, v) :: m)
    else if a = k then (if b = 0 then m else (a, b) :: m)
    else (k, v) :: writeByte m a b

/-- `MemRead(RXBUF, i, n)`: the `n` bytes from offset `i` (00_scope.md R9). -/
def readBytes (m : List Host.Cell) (i : Nat) : Nat → List Byte
  | 0 => []
  | n + 1 => readByte m i :: readBytes m (i + 1) n

/-- The canonical form of RXBUF: offsets strictly rising and below `size`, no zero byte listed. -/
abbrev Memory.wf (size : Nat) (m : List Host.Cell) : Prop :=
  m.Pairwise (fun x y => x.1 < y.1) ∧ ∀ x ∈ m, x.1 < size ∧ x.2 ≠ 0

/-- `RXBUF[RXN] <- b; RXN <- RXN + 1` (42_decoder.md R151); `none` when there is no such offset (R53). -/
def storeRx (b : Byte) (s : State) : Option State :=
  if s.rxn.toNat < s.cfg.rxbufSize then
    some { s with rxbuf := writeByte s.rxbuf s.rxn.toNat b, rxn := s.rxn + 1 }
  else none

/-- The decoder back in AWAIT_FROM with no byte held: `RXN <- 0; DSTATE <- AWAIT_FROM` (R151, R191, R264). -/
def clearDecoder (s : State) : State := { s with rxn := 0, dstate := .awaitFrom }

/-- `q_push(item)` (43_queue_transport.md R181). -/
def qPush (item : List Byte) (s : State) : State :=
  if s.rdPend then completeRead (respond .ok (countByte item :: item)) s
  else if s.q.length = s.cfg.qCap then { s with q := s.q.drop 1 ++ [item] }
  else { s with q := s.q ++ [item] }

/-- Bytes on the TX port, one uninterrupted run (R193, R194). -/
def emit (bytes : List Byte) (s : State) : State := { s with tx := s.tx ++ bytes }

/-- The entry into the terminal condition (R264), shared by CLOSE and IO.ERR: `DEAD <- 1`, the queue and the
decoder emptied, a pending read completed with DEAD. -/
def enterTerminal (s : State) : State :=
  let t := clearDecoder { s with dead := true, q := [] }
  if t.rdPend then completeRead (raise .dead) t else t

end Sys2Proof.Machine
end

