-- ==== Sys2Proof/Machine/Checksum.lean ====
section
/-! DEFINITION. The Checksum unit: the CRC functions and CRC.CLR, CRC.UPD, CRC.GET, CRC.BUF
(spec/40_checksum.md R101 to R107). -/

namespace Sys2Proof.Machine

/-- One shift of the reflected register (R101). -/
def crcShift (poly c : Word) : Word := if c.getLsbD 0 then (c >>> 1) ^^^ poly else c >>> 1

/-- `n` shifts. -/
def crcShifts (poly : Word) : Nat → Word → Word
  | 0, c => c
  | n + 1, c => crcShifts poly n (crcShift poly c)

/-- `crc_upd(c, b)` (R101). -/
def crcUpd (cfg : Config) (c : Word) (b : Byte) : Word :=
  crcShifts cfg.crcPolyR 8 (c ^^^ b.setWidth 16)

/-- The register after the bytes of `bytes`, from `c`. -/
def crcFold (cfg : Config) (c : Word) (bytes : List Byte) : Word := bytes.foldl (crcUpd cfg) c

/-- `crc16(B)` (R101). -/
def crc16 (cfg : Config) (bytes : List Byte) : Word := crcFold cfg cfg.crcInit bytes ^^^ cfg.crcXorOut

/-- The two bytes of a checksum value in wire order (R103). -/
def wireOrder (cfg : Config) (v : Word) : List Byte :=
  if cfg.crcLowFirst then [v.extractLsb' 0 8, v.extractLsb' 8 8] else [v.extractLsb' 8 8, v.extractLsb' 0 8]

/-- `crc_bytes(B)` (R103). -/
def crcBytes (cfg : Config) (bytes : List Byte) : List Byte := wireOrder cfg (crc16 cfg bytes)

/-- `CRC.CLR` (R104). -/
def execCrcClr (s : State) : Host.Outcome State Fault Refusal :=
  .next (reply 0x01 (respond .ok []) { s with crc := s.cfg.crcInit })

/-- `CRC.UPD b` (R105). -/
def execCrcUpd (b : Byte) (s : State) : Host.Outcome State Fault Refusal :=
  .next (reply 0x02 (respond .ok []) { s with crc := crcUpd s.cfg s.crc b })

/-- `CRC.GET` (R106). -/
def execCrcGet (s : State) : Host.Outcome State Fault Refusal :=
  .next (reply 0x03 (respond .ok (wireOrder s.cfg (s.crc ^^^ s.cfg.crcXorOut))) s)

/-- `CRC.BUF n, bytes[n]` (R107). -/
def execCrcBuf (bytes : List Byte) (s : State) : Host.Outcome State Fault Refusal :=
  let c := crcFold s.cfg s.cfg.crcInit bytes
  .next (reply 0x04 (respond .ok (wireOrder s.cfg (c ^^^ s.cfg.crcXorOut))) { s with crc := c })

end Sys2Proof.Machine
end

