-- ==== Sys2Proof/Machine/Decoder.lean ====
section
/-! DEFINITION. The Streaming Decoder and DEC.FEED (spec/42_decoder.md R150 to R157). -/

namespace Sys2Proof.Machine

/-- The end of a frame, after the last byte is stored: the buffer's checksum decides whether the item is
pushed; in both cases the decoder is back in AWAIT_FROM (R157). -/
def finishFrame (s : State) : State :=
  let n := s.rxn.toNat
  let item := readBytes s.rxbuf 0 n
  let good := crcBytes s.cfg (readBytes s.rxbuf 0 (n - 2)) = readBytes s.rxbuf (n - 2) 2
  if good then qPush item (clearDecoder s) else clearDecoder s

/-- `dec_step(b)` (R151), one branch per state; exactly one byte is consumed in each. -/
def decStep (b : Byte) (s : State) : Host.Outcome State Fault Refusal :=
  match s.dstate with
  | .awaitFrom =>
    if idMatch b s.expFrom wildcardRs then
      .next { s with rxbuf := writeByte s.rxbuf 0 b, rxn := 1, dstate := .awaitTo }
    else .next s
  | .awaitTo =>
    if idMatch b s.expTo wildcardRs then
      .next { s with rxbuf := writeByte s.rxbuf 1 b, rxn := 2, dstate := .awaitLen }
    else .next (clearDecoder s)
  | .awaitLen =>
    let len := low7 b
    if len = 0 ∨ s.cfg.decLenCap < len.toNat then .next (clearDecoder s)
    else .next { s with rxbuf := writeByte s.rxbuf 2 b, rxn := 3, drem := len, dstate := .awaitData }
  | .awaitData =>
    match storeRx b s with
    | none => .fault .rxbufRange
    | some t =>
      .next { t with drem := t.drem - 1, dstate := if t.drem - 1 = 0 then .awaitCrc1 else .awaitData }
  | .awaitCrc1 =>
    match storeRx b s with
    | none => .fault .rxbufRange
    | some t => .next { t with dstate := .awaitCrc2 }
  | .awaitCrc2 =>
    match storeRx b s with
    | none => .fault .rxbufRange
    | some t => .next (finishFrame t)

/-- `DEC.FEED b` (R150): ignored while dead; refused before a FLUSH with both update bits has completed since reset
(10_state.md R26: "has no defined meaning, and a model refuses it"; R296, R297; log 2). -/
def execDecFeed (b : Byte) (s : State) : Host.Outcome State Fault Refusal :=
  if s.dead then .next s
  else if s.expSet then decStep b s
  else .refused .expectationsUnwritten

end Sys2Proof.Machine
end

