-- ==== Sys2Proof/Machine/Codec.lean ====
section
/-! DEFINITION. The Frame Codec: `pack_rs`, `pack_can`, `unpack_rs`, `unpack_can` and the four commands over them
(spec/41_codec.md R120 to R135). No codec operation touches a state element but the response port. -/

namespace Sys2Proof.Machine

/-- The length field of a payload, `|data| + 1`, in the 7 bits of the field (R80). -/
def lenField (data : List Byte) : Field7 := BitVec.ofNat 7 (data.length + 1)

/-- The bytes that the checksum of an RS-form frame covers (R75, R121). -/
def coveredRs (f : FrameRS) : List Byte :=
  [f.frm, f.dst, packByte f.state (lenField f.data), packByte f.rw f.cmd] ++ f.data

/-- `pack_rs` (R121). -/
def packRs (cfg : Config) (f : FrameRS) : List Byte := coveredRs f ++ crcBytes cfg (coveredRs f)

/-- The bytes that the checksum of a CAN-form frame covers (R79, R125). -/
def coveredCan (f : FrameCAN) : List Byte :=
  [canSync, 0x00, packByte f.state f.id, byte7 (lenField f.data), packByte f.rw f.cmd] ++ f.data

/-- `pack_can` (R125). -/
def packCan (cfg : Config) (f : FrameCAN) : List Byte := coveredCan f ++ crcBytes cfg (coveredCan f)

/-- `unpack_rs(B, e0, e1)` (R129): the checks in the spec's order, the first that fails deciding the status. -/
def unpackRs (cfg : Config) (B : List Byte) (e0 e1 : Byte) : Except Status FrameRS :=
  let len := (low7 (B.getD 2 0)).toNat
  if B.length < 6 then .error .len
  else if len = 0 ∨ rsLenMax < len then .error .len
  else if B.length ≠ len + 5 then .error .len
  else if !idMatch (B.getD 0 0) e0 wildcardRs then .error .mId
  else if !idMatch (B.getD 1 0) e1 wildcardRs then .error .sId
  else if crcBytes cfg (B.take (len + 3)) ≠ B.drop (len + 3) then .error .crc
  else .ok
    { frm := B.getD 0 0
      dst := B.getD 1 0
      state := hiBit (B.getD 2 0)
      rw := hiBit (B.getD 3 0)
      cmd := low7 (B.getD 3 0)
      data := (B.drop 4).take (len - 1) }

/-- `unpack_can(B, e)` (R133). -/
def unpackCan (cfg : Config) (B : List Byte) (e : Field7) : Except Status FrameCAN :=
  let len := (low4 (B.getD 3 0)).toNat
  if B.length < 7 then .error .len
  else if len = 0 ∨ canLenMax < len then .error .len
  else if B.length ≠ len + 6 then .error .len
  else if B.getD 0 0 ≠ canSync then .error .head
  else if B.getD 1 0 ≠ 0x00 then .error .sId
  else if !idMatch (low7 (B.getD 2 0)) e cfg.wildcardCan then .error .sId
  else if crcBytes cfg (B.take (len + 4)) ≠ B.drop (len + 4) then .error .crc
  else .ok
    { id := low7 (B.getD 2 0)
      state := hiBit (B.getD 2 0)
      rw := hiBit (B.getD 4 0)
      cmd := low7 (B.getD 4 0)
      data := (B.drop 5).take (len - 1) }

/-- What `PACK.RS` answers (R120, R122). -/
def packRsReply (cfg : Config) (frm dst fl cmd : Byte) (data : List Byte) : Reply :=
  if flIllegal fl || hiBit cmd then raise .ill
  else if rsDataMax < data.length then raise .len
  else
    let p := packRs cfg ⟨frm, dst, flBit1 fl, flBit0 fl, low7 cmd, data⟩
    respond .ok (countByte p :: p)

/-- What `PACK.CAN` answers (R124, R126). -/
def packCanReply (cfg : Config) (id fl cmd : Byte) (data : List Byte) : Reply :=
  if hiBit id || flIllegal fl || hiBit cmd then raise .ill
  else if canDataMax < data.length then raise .len
  else
    let p := packCan cfg ⟨low7 id, flBit1 fl, flBit0 fl, low7 cmd, data⟩
    respond .ok (countByte p :: p)

/-- The result bytes of an unpacked RS-form frame: `from`, `to`, `fl`, `cmd`, `dn`, `data[dn]` (R88). -/
def frameRsBytes (f : FrameRS) : List Byte :=
  [f.frm, f.dst, flByte f.state f.rw, byte7 f.cmd, countByte f.data] ++ f.data

/-- The result bytes of an unpacked CAN-form frame: `id`, `fl`, `cmd`, `dn`, `data[dn]` (R88). -/
def frameCanBytes (f : FrameCAN) : List Byte :=
  [byte7 f.id, flByte f.state f.rw, byte7 f.cmd, countByte f.data] ++ f.data

/-- What `UNPACK.RS` answers (R128). -/
def unpackRsReply (cfg : Config) (exp0 exp1 : Byte) (bytes : List Byte) : Reply :=
  match unpackRs cfg bytes exp0 exp1 with
  | .error status => raise status
  | .ok f => respond .ok (frameRsBytes f)

/-- `UNPACK.CAN` up to its response: the must-be-zero bit of the operand byte `exp`, then `unpack_can` (R132). -/
def unpackCanByte (cfg : Config) (exp : Byte) (bytes : List Byte) : Except Status FrameCAN :=
  if hiBit exp then .error .ill else unpackCan cfg bytes (low7 exp)

/-- What `UNPACK.CAN` answers (R132). -/
def unpackCanReply (cfg : Config) (exp : Byte) (bytes : List Byte) : Reply :=
  match unpackCanByte cfg exp bytes with
  | .error status => raise status
  | .ok f => respond .ok (frameCanBytes f)

/-- `PACK.RS` (R120). -/
def execPackRs (frm dst fl cmd : Byte) (data : List Byte) (s : State) : Host.Outcome State Fault Refusal :=
  .next (reply 0x10 (packRsReply s.cfg frm dst fl cmd data) s)

/-- `PACK.CAN` (R124). -/
def execPackCan (id fl cmd : Byte) (data : List Byte) (s : State) : Host.Outcome State Fault Refusal :=
  .next (reply 0x11 (packCanReply s.cfg id fl cmd data) s)

/-- `UNPACK.RS` (R128). -/
def execUnpackRs (exp0 exp1 : Byte) (bytes : List Byte) (s : State) : Host.Outcome State Fault Refusal :=
  .next (reply 0x12 (unpackRsReply s.cfg exp0 exp1 bytes) s)

/-- `UNPACK.CAN` (R132). -/
def execUnpackCan (exp : Byte) (bytes : List Byte) (s : State) : Host.Outcome State Fault Refusal :=
  .next (reply 0x13 (unpackCanReply s.cfg exp bytes) s)

end Sys2Proof.Machine
end

