-- ==== Sys2Proof/Machine/Queue.lean ====
section
/-! DEFINITION. The queue, the timeout arbiter and transport control: RX.CHUNK, Q.READ, TICK, FLUSH, TX.WRITE,
CLOSE, IO.ERR, IS.ERR (spec/43_queue_transport.md R180 to R197). -/

namespace Sys2Proof.Machine

/-- `Q.READ` on acceptance (R186): the new state and the reply, or no reply yet when the read pends for `who`. An
item of 255 bytes is answered with its count byte and all 255 (R88, R186), which is one byte over the 255 result
bytes of 20_memory.md R50 (c). DEDUCED: log 29. -/
def qRead (who : RespChan) (t : Word) (s : State) : State × Option Reply :=
  if s.dead then (s, some (raise .dead))
  else
    match s.q with
    | item :: rest => ({ s with q := rest }, some (respond .ok (countByte item :: item)))
    | [] => if t = 0 then (s, some (raise .none)) else (armRead who t s, none)

/-- `FLUSH` (R191, R192). One that sets both expectations at once is the first operation R296 asks for. -/
def flush (fl frm dst : Byte) (s : State) : State × Reply :=
  if flIllegal fl then (s, raise .ill)
  else if s.dead then (s, raise .dead)
  else
    let t := clearDecoder { s with q := [] }
    ({ t with
        expFrom := if flBit0 fl then frm else t.expFrom
        expTo := if flBit1 fl then dst else t.expTo
        expSet := (flBit0 fl && flBit1 fl) || t.expSet }, respond .ok [])

/-- `TX.WRITE` (R193). -/
def txWrite (bytes : List Byte) (s : State) : State × Reply :=
  if s.dead then (s, raise .dead) else (emit bytes s, respond .ok [])

/-- What `IS.ERR` answers (R197). -/
def isErrReply (s : State) : Reply := respond .ok [if s.dead then 0x01 else 0x00]

/-- `RX.CHUNK` (R182, R183). On the decoder path the chunk's bytes wait for their DEC.FEED steps, which are
separate atomic steps (00_scope.md R12); on the raw path the whole chunk is one item. -/
def execRxChunk (bytes : List Byte) (s : State) : Host.Outcome State Fault Refusal :=
  if s.dead || bytes.isEmpty then .next s
  else if s.decAttached then .next { s with rxRest := s.rxRest ++ bytes }
  else if bytes.length ≤ s.cfg.itemMax then .next (qPush bytes s)
  else .refused .chunkOverItemMax

/-- `Q.READ` at the command port (R186). While a read is pending the port does not accept it: its bytes stay
at the head of the port, and every later command behind them (70_reset_and_hazards.md R308). -/
def execQRead (tHi tLo : Byte) (s : State) : Host.Outcome State Fault Refusal :=
  if s.rdPend then .next { s with port := encode (.qRead tHi tLo) ++ s.port }
  else
    match qRead .commandPort (timeoutOf tHi tLo) s with
    | (t, some r) => .next (reply 0x20 r t)
    | (t, none) => .next t

/-- `TICK` (R189). -/
def execTick (s : State) : Host.Outcome State Fault Refusal := .next (tickTimer s)

/-- `FLUSH` (R191). -/
def execFlush (fl frm dst : Byte) (s : State) : Host.Outcome State Fault Refusal :=
  .next (reply 0x21 (flush fl frm dst s).2 (flush fl frm dst s).1)

/-- `TX.WRITE` (R193). -/
def execTxWrite (bytes : List Byte) (s : State) : Host.Outcome State Fault Refusal :=
  .next (reply 0x22 (txWrite bytes s).2 (txWrite bytes s).1)

/-- `CLOSE` (R195): a pending read is answered first, then the CLOSE itself. -/
def execClose (s : State) : Host.Outcome State Fault Refusal :=
  .next (reply 0x23 (respond .ok []) (enterTerminal s))

/-- `IO.ERR` (R196). -/
def execIoErr (s : State) : Host.Outcome State Fault Refusal := .next (enterTerminal s)

/-- `IS.ERR` (R197). -/
def execIsErr (s : State) : Host.Outcome State Fault Refusal := .next (reply 0x24 (isErrReply s) s)

end Sys2Proof.Machine
end

