-- ==== Sys2Proof/Machine/HostClient.lean ====
section
/-! DEFINITION. The host agent: CONNECT_TO, SEND, PEND, GET_RANGE and CONNECT_DEVICE as sequences of UTFE commands
(spec/44_host_client.md R220 to R232). One UTFE command is one atomic step (00_scope.md R12): a call takes the
lock and issues its procedure's first command; `clientTurn` issues each later one, and steps of the other agents
may fall between (log 11). -/

namespace Sys2Proof.Machine

/-- The procedure in progress goes on at `stage` in the context `ctx`. -/
def setProc (ctx : Ctx) (stage : Stage) (s : State) : State :=
  { s with client := { s.client with proc := some ⟨ctx, stage⟩ } }

/-- Whether the lock spans a PEND still to come when a procedure returns `r` (R224): a SEND that returned OK opens the
pair; after every other return no request is outstanding (log 12). -/
def opensPair : CallResult → Bool
  | .status code status _ => code = 0x41 && status = .ok
  | .range _ => false

/-- The procedure returns to its caller; the lock is released but for the open pair of a SEND (R224). -/
def finishCall (r : CallResult) (s : State) : State :=
  { s with client := { s.client with
      lock := opensPair r
      pair := opensPair r
      proc := none
      results := s.client.results ++ [r] } }

/-- The wildcard id of the variant in use (R230). -/
def wildcardOf (s : State) : Byte :=
  match s.client.form with
  | .rs => wildcardRs
  | .can => byte7 s.cfg.wildcardCan

/-- The handshake's descriptor (R232). -/
def handshakeDesc (cfg : Config) : Descriptor :=
  { cmd := negotiateCmd
    readReqLen := .fixed cfg.hsData.length
    readRespLen := .var
    writeReqLen := .fixed cfg.hsData.length
    writeRespLen := .var }

def Frame.rw : Frame → Bool
  | .rs f => f.rw
  | .can f => f.rw

def Frame.cmd : Frame → Field7
  | .rs f => f.cmd
  | .can f => f.cmd

def Frame.state : Frame → Bool
  | .rs f => f.state
  | .can f => f.state

def Frame.data : Frame → List Byte
  | .rs f => f.data
  | .can f => f.data

/-- PEND's correlation tests, in the spec's order (R227). -/
def correlate (rw : Bool) (d : Descriptor) (tstate : Bool) (f : Frame) : Status :=
  if f.rw ≠ rw then .rw
  else if f.cmd ≠ d.cmd then .cmd
  else if f.state ≠ tstate then .state
  else .ok

/-- GET_RANGE points the connection back at the saved target (R230). -/
def closeRange (saved : Byte) (done : List Slot) (s : State) : State :=
  setProc (.rangeClose done) (.connectFlush saved s.client.auxId) s

/-- GET_RANGE goes on to the next slot, or closes when none is left (R230). -/
def nextSlot (d : Descriptor) (saved : Byte) (left : Nat) (done : List Slot) (s : State) : State :=
  if left = 0 then closeRange saved done s
  else setProc (.rangePend d saved left done) (.pendRead false d s.cfg.tDefault) s

/-- CONNECT_DEVICE goes on to the next attempt, or fails when none is left (R232). -/
def nextAttempt (left : Nat) (s : State) : State :=
  if left = 0 then finishCall (.status 0x44 .connect none) s
  else setProc (.deviceSend left) (.sendQuery s.cfg.hsRw (handshakeDesc s.cfg) s.cfg.hsData) s

/-- A CONNECT_TO, SEND or PEND returns `(status, frame)`: what follows in the procedure that called it (R230,
R232), or the return to the caller. -/
def clientReturn (ctx : Ctx) (status : Status) (frame : Option Frame) (s : State) : State :=
  match ctx with
  | .top code => finishCall (.status code status frame) s
  | .rangeOpen d saved count => setProc (.rangeSend d saved count) (.sendQuery false d []) s
  | .rangeSend d saved count =>
    if status = .ok then nextSlot d saved count [] s
    else closeRange saved (List.replicate count ⟨status, []⟩) s
  | .rangePend d saved left done =>
    nextSlot d saved (left - 1) (done ++ [⟨status, (frame.map Frame.data).getD []⟩]) s
  | .rangeClose done => finishCall (.range done) s
  | .deviceOpen => nextAttempt s.cfg.hsTries s
  | .deviceSend left =>
    if status = .dead then finishCall (.status 0x44 .dead none) s
    else setProc (.devicePend left) (.pendRead s.cfg.hsRw (handshakeDesc s.cfg) s.cfg.hsTimeout) s
  | .devicePend left =>
    if status = .ok ∨ status = .state then finishCall (.status 0x44 .ok none) s
    else if status = .dead then finishCall (.status 0x44 .dead none) s
    else nextAttempt (left - 1) s

/-- CONNECT_TO's one command: the template is repointed and FLUSH issued with both ids (R223). -/
def issueConnect (ctx : Ctx) (targetId : Byte) (auxId : Nat) (s : State) : State :=
  let t := { s with client := { s.client with targetId := targetId, auxId := auxId } }
  let p := flush 0x03 targetId t.cfg.hostId t
  clientReturn ctx p.2.status none (reply 0x21 p.2 p.1)

/-- SEND's first command, IS.ERR, and the sizing of the request (R222, R225). -/
def issueQuery (ctx : Ctx) (rw : Bool) (d : Descriptor) (payload : List Byte) (s : State) : State :=
  let t := reply 0x24 (isErrReply s) s
  if s.dead then clientReturn ctx .dead none t
  else
    match requestLength d rw payload with
    | none => clientReturn ctx .len none t
    | some len => setProc ctx (.sendPack rw d (payload.take len)) t

/-- The PACK command of the template's variant: its opcode and what it answers (R225). -/
def packCommand (rw : Bool) (d : Descriptor) (data : List Byte) (s : State) : Byte × Reply :=
  let fl := flByte s.client.tstate rw
  match s.client.form with
  | .rs => (0x10, packRsReply s.cfg s.cfg.hostId s.client.targetId fl (byte7 d.cmd) data)
  | .can => (0x11, packCanReply s.cfg s.client.targetId fl (byte7 d.cmd) data)

/-- SEND's second command, PACK.RS or PACK.CAN by the template (R225). -/
def issuePack (ctx : Ctx) (rw : Bool) (d : Descriptor) (data : List Byte) (s : State) : State :=
  let p := packCommand rw d data s
  let t := reply p.1 p.2 s
  if p.2.status = .ok then setProc ctx (.sendWrite (p.2.result.drop 1)) t else clientReturn ctx p.2.status none t

/-- SEND's third command, TX.WRITE (R225). -/
def issueWrite (ctx : Ctx) (frame : List Byte) (s : State) : State :=
  let p := txWrite frame s
  clientReturn ctx p.2.status none (reply 0x22 p.2 p.1)

/-- PEND has the response of its Q.READ (R227). -/
def afterRead (ctx : Ctx) (rw : Bool) (d : Descriptor) (r : Reply) (s : State) : State :=
  if r.status = .ok then setProc ctx (.pendUnpack rw d (r.result.drop 1)) s
  else if r.status = .none then clientReturn ctx .timeout none s
  else clientReturn ctx r.status none s

/-- PEND's first command, Q.READ (R227). -/
def issueRead (ctx : Ctx) (rw : Bool) (d : Descriptor) (timeout : Word) (s : State) : State :=
  match qRead .client timeout s with
  | (t, some r) => afterRead ctx rw d r (reply 0x20 r t)
  | (t, none) => setProc ctx (.pendWait rw d) t

/-- PEND's second command, UNPACK.RS or UNPACK.CAN, and the correlation tests (R227). -/
def issueUnpack (ctx : Ctx) (rw : Bool) (d : Descriptor) (item : List Byte) (s : State) : State :=
  match s.client.form with
  | .rs =>
    let t := reply 0x12 (unpackRsReply s.cfg s.client.targetId s.cfg.hostId item) s
    match unpackRs s.cfg item s.client.targetId s.cfg.hostId with
    | .error status => clientReturn ctx status none t
    | .ok f => clientReturn ctx (correlate rw d s.client.tstate (.rs f)) (some (.rs f)) t
  | .can =>
    let t := reply 0x13 (unpackCanReply s.cfg s.client.targetId item) s
    match unpackCanByte s.cfg s.client.targetId item with
    | .error status => clientReturn ctx status none t
    | .ok f => clientReturn ctx (correlate rw d s.client.tstate (.can f)) (some (.can f)) t

/-- The procedure in progress can go on: it waits for its response, or for the command port to be free (the
port carries one command at a time, R308), or for the pending read of another to complete (R186). -/
def clientReady (s : State) : Bool :=
  match s.client.proc with
  | none => false
  | some p =>
    match p.stage with
    | .pendWait _ _ => s.client.inbox.isSome
    | .pendRead _ _ _ => s.port.isEmpty && !s.rdPend
    | .connectFlush _ _ | .sendQuery _ _ _ | .sendPack _ _ _ | .sendWrite _ | .pendUnpack _ _ _ =>
      s.port.isEmpty

/-- The procedure in progress issues the command of its stage. -/
def issueStage (p : Proc) (s : State) : State :=
  match p.stage with
  | .connectFlush targetId auxId => issueConnect p.ctx targetId auxId s
  | .sendQuery rw d payload => issueQuery p.ctx rw d payload s
  | .sendPack rw d data => issuePack p.ctx rw d data s
  | .sendWrite frame => issueWrite p.ctx frame s
  | .pendRead rw d timeout => issueRead p.ctx rw d timeout s
  | .pendWait rw d =>
    match s.client.inbox with
    | none => s
    | some r => afterRead p.ctx rw d r { s with client := { s.client with inbox := none } }
  | .pendUnpack rw d item => issueUnpack p.ctx rw d item s

/-- The host agent's turn: the next command of the procedure in progress, if it can be issued. -/
def clientTurn (s : State) : State :=
  match s.client.proc with
  | none => s
  | some p => if clientReady s then issueStage p s else s

/-- PEND, the one call that can run under the lock of an open pair (R224). -/
def isPend : Instr → Bool
  | .pend _ _ _ => true
  | .crcClr | .crcUpd _ | .crcGet | .crcBuf _ => false
  | .packRs _ _ _ _ _ | .packCan _ _ _ _ | .unpackRs _ _ _ | .unpackCan _ _ => false
  | .qRead _ _ | .flush _ _ _ | .txWrite _ | .close | .isErr => false
  | .rxChunk _ | .decFeed _ | .ioErr | .tick => false
  | .connectTo _ _ | .send _ _ _ | .getRange _ _ _ | .connectDevice => false

/-- Caller `c` may begin the procedure `i`: none is in progress, and the lock is free, or spans the caller's own SEND
and `i` is the PEND that completes the pair (R224: "at most one request is outstanding"; log 30). -/
abbrev mayCall (c : Nat) (i : Instr) (s : State) : Prop :=
  s.client.proc = none ∧
    (s.client.lock = true → s.client.pair = true ∧ s.client.holder = c ∧ isPend i = true)

/-- The caller calls a procedure: it takes the lock, or goes on under its pair's, and issues the first command; else
it waits (R224). -/
def beginCall (i : Instr) (p : Proc) (s : State) : State :=
  if mayCall s.client.caller i s then
    clientTurn { s with client := { s.client with lock := true, holder := s.client.caller, proc := some p } }
  else { s with client := { s.client with waiting := s.client.waiting ++ [(s.client.caller, i)] } }

/-- `CONNECT_TO` (R223). -/
def execConnectTo (targetId : Byte) (auxId : Nat) (s : State) : Host.Outcome State Fault Refusal :=
  .next (beginCall (.connectTo targetId auxId) ⟨.top 0x40, .connectFlush targetId auxId⟩ s)

/-- `SEND` (R225). -/
def execSend (rw : Bool) (d : Descriptor) (payload : List Byte) (s : State) :
    Host.Outcome State Fault Refusal :=
  .next (beginCall (.send rw d payload) ⟨.top 0x41, .sendQuery rw d payload⟩ s)

/-- `PEND`; an omitted timeout is `T_DEFAULT` (R227). -/
def execPend (rw : Bool) (d : Descriptor) (timeout : Option Word) (s : State) :
    Host.Outcome State Fault Refusal :=
  .next (beginCall (.pend rw d timeout) ⟨.top 0x42, .pendRead rw d (timeout.getD s.cfg.tDefault)⟩ s)

/-- The number of slots, `end_id - start_id + 1`; for a reversed range, which R230 requires not to be and for which it
states no number, a free value (log 15). -/
def rangeCount (startId endId : Byte) (s : State) : Nat :=
  if startId.toNat ≤ endId.toNat then endId.toNat - startId.toNat + 1 else Config.freeSlots s.draws

/-- A GET_RANGE that begins with a reversed range has drawn a free value; one that has to wait draws none yet. -/
def drawSlots (d : Descriptor) (startId endId : Byte) (s : State) : State :=
  if endId.toNat < startId.toNat ∧ mayCall s.client.caller (.getRange d startId endId) s then
    { s with draws := s.draws + 1 }
  else s

/-- `GET_RANGE` (R230): it saves the target, then points at the wildcard. -/
def execGetRange (d : Descriptor) (startId endId : Byte) (s : State) : Host.Outcome State Fault Refusal :=
  .next (beginCall (.getRange d startId endId)
    ⟨.rangeOpen d s.client.targetId (rangeCount startId endId s), .connectFlush (wildcardOf s) s.client.auxId⟩
    (drawSlots d startId endId s))

/-- `CONNECT_DEVICE` (R232). -/
def execConnectDevice (s : State) : Host.Outcome State Fault Refusal :=
  .next (beginCall .connectDevice ⟨.deviceOpen, .connectFlush wildcardRs 0⟩ s)

end Sys2Proof.Machine
end

