-- ==== Sys2Proof/Machine/Dispatch.lean ====
section
/-! DEFINITION. The dispatch: one arm per row of spec/opcode_table.json, in the table's order. -/

namespace Sys2Proof.Machine

def exec (i : Instr) (s : State) : Host.Outcome State Fault Refusal :=
  match i with
  | .crcClr => Sys2Proof.Machine.execCrcClr s
  | .crcUpd b => Sys2Proof.Machine.execCrcUpd b s
  | .crcGet => Sys2Proof.Machine.execCrcGet s
  | .crcBuf bytes => Sys2Proof.Machine.execCrcBuf bytes s
  | .packRs frm dst fl cmd data => Sys2Proof.Machine.execPackRs frm dst fl cmd data s
  | .packCan id fl cmd data => Sys2Proof.Machine.execPackCan id fl cmd data s
  | .unpackRs exp0 exp1 bytes => Sys2Proof.Machine.execUnpackRs exp0 exp1 bytes s
  | .unpackCan exp bytes => Sys2Proof.Machine.execUnpackCan exp bytes s
  | .qRead tHi tLo => Sys2Proof.Machine.execQRead tHi tLo s
  | .flush fl frm dst => Sys2Proof.Machine.execFlush fl frm dst s
  | .txWrite bytes => Sys2Proof.Machine.execTxWrite bytes s
  | .close => Sys2Proof.Machine.execClose s
  | .isErr => Sys2Proof.Machine.execIsErr s
  | .rxChunk bytes => Sys2Proof.Machine.execRxChunk bytes s
  | .decFeed b => Sys2Proof.Machine.execDecFeed b s
  | .ioErr => Sys2Proof.Machine.execIoErr s
  | .tick => Sys2Proof.Machine.execTick s
  | .connectTo targetId auxId => Sys2Proof.Machine.execConnectTo targetId auxId s
  | .send rw d payload => Sys2Proof.Machine.execSend rw d payload s
  | .pend rw d timeout => Sys2Proof.Machine.execPend rw d timeout s
  | .getRange d startId endId => Sys2Proof.Machine.execGetRange d startId endId s
  | .connectDevice => Sys2Proof.Machine.execConnectDevice s

end Sys2Proof.Machine
end

