-- ==== Sys2Proof/Machine/Fetch.lean ====
section
/-! DEFINITION. Where the next step's instruction comes from: the command port, the schedule and its default order
(log 5), the same-cycle order of spec/60_exceptions.md R262, and the bytes of a table row. -/

namespace Sys2Proof.Machine

/-- What stands at the head of the command port. -/
def fetchPort (s : State) : Decoded := decodeCommand s.port

/-- The command port can move: a whole command or an undefined opcode stands at its head, and it is not a
Q.READ that must wait for the pending one (R186). -/
def portReady (s : State) : Bool :=
  match fetchPort s with
  | .ok (.qRead _ _) _ => !s.rdPend
  | .ok _ _ => true
  | .undefinedCode _ _ => true
  | .incomplete => false

/-- The default order when the schedule is empty: the chunk in delivery, the command port, the procedure in
progress, the first waiting caller that may begin, and last the next stimulus. DESIGN CHOICE: log 5. -/
def defaultTurn (s : State) : Turn :=
  if !s.rxRest.isEmpty then .rx
  else if portReady s then .port
  else if clientReady s then .client
  else
    match s.client.waiting.findIdx? (fun w => decide (mayCall w.1 w.2 s)) with
    | some k => .caller k
    | none => .input

/-- The place of an instruction in the same-cycle order of R262: terminal, flush, push, host command, tick. A call
takes the place of the command it issues first: FLUSH for CONNECT_TO, GET_RANGE and CONNECT_DEVICE (R223, R230,
R232), another one for SEND and PEND. DESIGN CHOICE for a DEC.FEED in the cycle of a FLUSH: R262 orders the FLUSH
before "a `q_push`" and does not say where the other effects of the DEC.FEED fall; the whole DEC.FEED stands third, so
it finds the decoder emptied, and a byte that would have completed a frame held from earlier cycles pushes nothing
(log 31). -/
def cycleRank : Instr → Nat
  | .close | .ioErr => 0
  | .flush _ _ _ | .connectTo _ _ | .getRange _ _ _ | .connectDevice => 1
  | .rxChunk _ | .decFeed _ => 2
  | .crcClr | .crcUpd _ | .crcGet | .crcBuf _ => 3
  | .packRs _ _ _ _ _ | .packCan _ _ _ _ | .unpackRs _ _ _ | .unpackCan _ _ => 3
  | .qRead _ _ | .txWrite _ | .isErr => 3
  | .send _ _ _ | .pend _ _ _ => 3
  | .tick => 4

/-- Insert before the first instruction of a greater rank. -/
def insertByRank (i : Instr) : List Instr → List Instr
  | [] => [i]
  | j :: js => if cycleRank j ≤ cycleRank i then j :: insertByRank i js else i :: j :: js

/-- The order in which the steps of one clock cycle are performed (R262); equal ranks keep their order. -/
def cycleOrder (is : List Instr) : List Instr := is.foldl (fun acc i => insertByRank i acc) []

/-- The steps by which an instruction falls in a clock cycle: a chunk on the decoder path is the DEC.FEED steps of
its bytes, in byte order (R182). That all of them fall in the one cycle is DESIGN CHOICE: log 6. -/
def cycleSteps (attached : Bool) (i : Instr) : List Instr :=
  match i with
  | .rxChunk bytes => if attached then bytes.map .decFeed else [.rxChunk bytes]
  | _ => [i]

/-- What the RX agent and the timer do in a cycle. -/
def cycleEvents (attached : Bool) (is : List Instr) : List Instr :=
  (is.filter fun i => i.port = .rx ∨ i.port = .tick).flatMap (cycleSteps attached)

/-- The command that the port accepts in a cycle, and the bytes then left on it: the one at its head, if a whole one
is there. -/
def acceptHead (port : List Byte) : List Instr × List Byte :=
  match decodeCommand port with
  | .ok i rest => ([i], rest)
  | .undefinedCode _ _ => ([], port)
  | .incomplete => ([], port)

/-- The bytes of a table row's instruction: as many as the decoder takes, or the row's own bytes when it takes
none. -/
def rowBytes (nbits w : Nat) : List Byte :=
  match decode (wordPort nbits w) {} (wordBytes nbits w) with
  | .ok _ rest => (wordBytes nbits w).take (maxInstrBytes - rest.length)
  | .undefinedCode _ _ => (wordBytes nbits w).take (nbits / 8)
  | .incomplete => (wordBytes nbits w).take (nbits / 8)

end Sys2Proof.Machine
end

