-- ==== Sys2Proof/Machine/Reset.lean ====
section
/-! DEFINITION. The reset input (spec/70_reset_and_hazards.md R290 to R295). -/

namespace Sys2Proof.Machine

/-- Reset applied to a running machine: the block takes the values of R291, the parameters stay, `DEC_ATTACHED`
is sampled, the work in progress is abandoned without a response (R292) and nothing is sent. R292 names the pending
read and the command partly shifted in; that the whole commands still waiting on the port (a held Q.READ and those
behind it) are dropped with them is the model's choice, DESIGN CHOICE: log 14. The host's template stays; its
procedure in progress, the lock and the chunk in delivery go with the old connection (log 14). -/
def applyReset (decAttached : Bool) (s : State) : State :=
  { s with
    crc := s.cfg.crcInit
    rxbuf := []
    rxn := 0
    drem := 0
    dstate := .awaitFrom
    dead := false
    rdPend := false
    expFrom := 0
    expTo := 0
    expSet := false
    rdTmr := 0
    decAttached := decAttached
    q := []
    respChan := .idle
    port := []
    client := { s.client with lock := false, pair := false, proc := none, inbox := none }
    rxRest := [] }

end Sys2Proof.Machine
end

