-- ==== Sys2Proof/Machine/Turns.lean ====
section
/-! DEFINITION. What each agent's turn does (spec/00_scope.md R11, R12): each takes one atomic step. -/

namespace Sys2Proof.Machine

/-- Instructions performed one after the other, stopping at the first that has no next state. -/
def runInstrs : List Instr → State → Host.Outcome State Fault Refusal
  | [], s => .next s
  | i :: is, s =>
    match exec i s with
    | .next t => runInstrs is t
    | .fault r => .fault r
    | .refused r => .refused r

/-- The command port's turn: the command at its head is accepted and executed; an undefined opcode is answered
ILL and consumes its one byte (30_encoding.md R92); a command that has not all come stays. -/
def portTurn (s : State) : Host.Outcome State Fault Refusal :=
  match fetchPort s with
  | .ok i rest => exec i { s with port := rest }
  | .undefinedCode code rest => .next (reply code (raise .ill) { s with port := rest })
  | .incomplete => .next s

/-- The RX agent's turn: the next byte of the chunk in delivery (R182). -/
def rxTurn (s : State) : Host.Outcome State Fault Refusal :=
  match s.rxRest with
  | [] => .next s
  | b :: rest => exec (.decFeed b) { s with rxRest := rest }

/-- The `k`-th waiting caller, if it may, acquires the lock and its procedure begins (44_host_client.md R224); the
calls that come next are still made by the caller that the environment has named. -/
def callerTurn (k : Nat) (s : State) : Host.Outcome State Fault Refusal :=
  match s.client.waiting[k]? with
  | none => .next s
  | some (c, i) =>
    if mayCall c i s then
      match exec i { s with client := { s.client with caller := c, waiting := s.client.waiting.eraseIdx k } } with
      | .next t => .next { t with client := { t.client with caller := s.client.caller } }
      | .fault r => .fault r
      | .refused r => .refused r
    else .next s

/-- One clock cycle (60_exceptions.md R262). The bytes of its commands come to the command port, behind those that
wait there, and the port accepts the one command at its head, or none when a Q.READ must wait there: "the host port
carries one command at a time". A call made while the port has bytes issues nothing yet; on an empty port the first
call issues its first command, and a further one falls in the next cycle. All that runs does so in the order of
R262. DESIGN CHOICE where R262 is silent: log 6. -/
def cycleTurn (instrs : List Instr) (s : State) : Host.Outcome State Fault Refusal :=
  let events := cycleEvents s.decAttached instrs
  let calls := instrs.filter fun i => i.port = .call
  let port := s.port ++ (instrs.filter fun i => i.port = .command).flatMap encode
  if port = [] then
    runInstrs (cycleOrder (events ++ calls.take 1))
      { s with inp := (calls.drop 1).map (fun i => .cycle [i]) ++ s.inp }
  else
    match runInstrs calls { s with port := port } with
    | .next t => runInstrs (cycleOrder (events ++ (acceptHead port).1)) { t with port := (acceptHead port).2 }
    | .fault r => .fault r
    | .refused r => .refused r

/-- The stimuli after a message of which `left` bytes remain. -/
def afterMsg (port : Port) (args : CallArgs) (left : List Byte) (rest : List Stim) : List Stim :=
  if left.isEmpty then rest else .msg port args left :: rest

/-- The environment's turn: the next stimulus. Bytes of the command port are delivered to it; an event or a
call is executed; an event of the RX agent, also one that falls in a cycle with other steps, waits for the chunk
that agent is delivering, whose next byte it feeds instead (log 6). -/
def inputTurn (s : State) : Host.Outcome State Fault Refusal :=
  match s.inp with
  | [] => .next s
  | .reset decAttached :: rest => .next (applyReset decAttached { s with inp := rest })
  | .template form tstate :: rest =>
    .next { s with inp := rest, client := { s.client with form := form, tstate := tstate } }
  | .caller k :: rest => .next { s with inp := rest, client := { s.client with caller := k } }
  | .cycle instrs :: rest =>
    if (∃ i ∈ instrs, i.port = .rx) ∧ s.rxRest ≠ [] then rxTurn s
    else cycleTurn instrs { s with inp := rest }
  | .msg .command _ bytes :: rest => .next { s with inp := rest, port := s.port ++ bytes }
  | .msg port args bytes :: rest =>
    if port = .rx ∧ s.rxRest ≠ [] then rxTurn s
    else
      match decode port args bytes with
      | .ok i left => exec i { s with inp := afterMsg port args left rest }
      | .undefinedCode code _ => .refused (.notAnEvent code)
      | .incomplete => .refused .truncatedEvent

/-- One agent's turn. -/
def turn (t : Turn) (s : State) : Host.Outcome State Fault Refusal :=
  match t with
  | .input => inputTurn s
  | .port => portTurn s
  | .rx => rxTurn s
  | .client => .next (clientTurn s)
  | .caller k => callerTurn k s

end Sys2Proof.Machine
end

