-- ==== Sys2Proof/Machine/Step.lean ====
section
/-! DEFINITION. The step of UTFE and its agents, and where it fetches its next instruction. -/

namespace Sys2Proof.Machine

/-- One atomic step (spec/00_scope.md R12): the agent that the schedule names next, or the default order when the
schedule is empty. An agent with nothing to do leaves the state as it is (log 27). -/
def step (s : State) : Host.Outcome State Fault Refusal :=
  match s.sched with
  | [] => turn (defaultTurn s) s
  | t :: ts => turn t { s with sched := ts }

/-- `s` with a table row's instruction where the next step fetches it: a command at the head of the command port,
an event or a call (with the default values of `CallArgs`) as the next stimulus; the schedule gives that port the
turn. An RX event also needs that no chunk is in delivery. -/
def State.withFetchWord (s : State) (nbits w : Nat) : State :=
  match wordPort nbits w with
  | .command => { s with port := rowBytes nbits w ++ s.port, sched := .port :: s.sched }
  | .rx =>
    { s with rxRest := [], inp := .msg .rx {} (rowBytes nbits w) :: s.inp, sched := .input :: s.sched }
  | .tick => { s with inp := .msg .tick {} (rowBytes nbits w) :: s.inp, sched := .input :: s.sched }
  | .call => { s with inp := .msg .call {} (rowBytes nbits w) :: s.inp, sched := .input :: s.sched }

end Sys2Proof.Machine
end

