-- ==== Sys2Proof/Safety.lean ====
section
/-! DEFINITION. What holds of every state of a run from reset, in the terms the statements use: the invariants of
spec/10_state.md R23, R24, R34, R39, R40 and spec/42_decoder.md R160, R165, and those of the host's lock (44
R224). Also short runs: turns of the host agent and of the RX agent. -/

namespace Sys2Proof.Machine

/-- The length field of the frame in RXBUF (R23). -/
def rxLen (s : State) : Nat := (low7 (readByte s.rxbuf 2)).toNat

/-- The first byte held passed the from-id test (R152). -/
abbrev fromHeld (s : State) : Prop := idMatch (readByte s.rxbuf 0) s.expFrom wildcardRs = true

/-- The second byte held passed the to-id test (R153). -/
abbrev toHeld (s : State) : Prop := idMatch (readByte s.rxbuf 1) s.expTo wildcardRs = true

/-- The third byte held passed the length test (R154). -/
abbrev lenHeld (s : State) : Prop := 1 ≤ rxLen s ∧ rxLen s ≤ s.cfg.decLenCap

/-- The decoder's registers agree with its state: `RXN` is the function of `DSTATE`, `DREM` and the length byte
that R23 gives, `DREM` is at least 1 in AWAIT_DATA (R24), and the header bytes held have passed their tests. -/
abbrev DecoderInv (s : State) : Prop :=
  match s.dstate with
  | .awaitFrom => s.rxn = 0
  | .awaitTo => s.rxn = 1 ∧ fromHeld s
  | .awaitLen => s.rxn = 2 ∧ fromHeld s ∧ toHeld s
  | .awaitData =>
    fromHeld s ∧ toHeld s ∧ lenHeld s ∧ 1 ≤ s.drem.toNat ∧ s.drem.toNat ≤ rxLen s ∧
      s.rxn.toNat + s.drem.toNat = 3 + rxLen s
  | .awaitCrc1 => fromHeld s ∧ toHeld s ∧ lenHeld s ∧ s.rxn.toNat = 3 + rxLen s
  | .awaitCrc2 => fromHeld s ∧ toHeld s ∧ lenHeld s ∧ s.rxn.toNat = 4 + rxLen s

/-- An item that the decoder emits (R39 (e), R165): ids accepted, length legal and equal to its size, checksum
correct. -/
abbrev AcceptedItem (s : State) (item : List Byte) : Prop :=
  idMatch (item.getD 0 0) s.expFrom wildcardRs = true ∧ idMatch (item.getD 1 0) s.expTo wildcardRs = true ∧
    1 ≤ (low7 (item.getD 2 0)).toNat ∧ (low7 (item.getD 2 0)).toNat ≤ s.cfg.decLenCap ∧
    item.length = (low7 (item.getD 2 0)).toNat + 5 ∧
    crcBytes s.cfg (item.take (item.length - 2)) = item.drop (item.length - 2)

/-- The queue's invariants (R39 (a), (d), (e)). -/
abbrev QueueInv (s : State) : Prop :=
  s.q.length ≤ s.cfg.qCap ∧ (∀ item ∈ s.q, 1 ≤ item.length ∧ item.length ≤ s.cfg.itemMax) ∧
    (s.decAttached = true → ∀ item ∈ s.q, AcceptedItem s item)

/-- The pending read's invariants (R34, R39 (b), (c), R40 (c)). -/
abbrev ReadInv (s : State) : Prop :=
  (s.rdPend = true → s.q = [] ∧ s.rdTmr ≠ 0) ∧ (s.rdPend = false → s.rdTmr = 0) ∧
    (s.rdPend = true ↔ s.respChan ≠ .idle) ∧ (s.dead = true → s.q = [] ∧ s.rdPend = false)

/-- The procedure in progress waits for the response of its Q.READ. -/
def clientWaits (s : State) : Bool :=
  match s.client.proc with
  | some ⟨_, .pendWait _ _⟩ => true
  | _ => false

/-- The host's invariants: the lock is held exactly while a procedure is in progress or a SEND still lacks its PEND,
and no procedure but that PEND runs before it, so that at most one request is outstanding (R224); a response is owed
to, or has come for, the procedure exactly while it waits for one, and not both. -/
abbrev ClientInv (s : State) : Prop :=
  (s.client.lock = (s.client.proc.isSome || s.client.pair)) ∧
    (s.client.pair = true → ∀ p ∈ s.client.proc, p.ctx = .top 0x42) ∧
    (clientWaits s = true ↔ s.respChan = .client ∨ s.client.inbox.isSome = true) ∧
    ¬ (s.respChan = .client ∧ s.client.inbox.isSome = true)

/-- What holds at reset and is kept by every step. -/
structure StateInv (s : State) : Prop where
  config : s.cfg.Ok
  buffer : Memory.wf s.cfg.rxbufSize s.rxbuf
  decoder : DecoderInv s
  queue : QueueInv s
  read : ReadInv s
  client : ClientInv s

/-- How many slots the GET_RANGE in progress will return (44_host_client.md R230); `none` in any other
procedure. -/
def slotCount : Ctx → Option Nat
  | .rangeOpen _ _ count => some count
  | .rangeSend _ _ count => some count
  | .rangePend _ _ left done => some (done.length + left)
  | .rangeClose done => some done.length
  | .top _ | .deviceOpen | .deviceSend _ | .devicePend _ => none

/-- What PEND makes of a dequeued item (R227), in the form of the template: a codec status without a frame, else RW,
CMD, STATE tested in that order, or OK, with the frame. A CAN-form target id that is no 7-bit value is ILL (log 28). -/
def ItemResult (s : State) (rw : Bool) (d : Descriptor) (item : List Byte) (st : Status) (frame : Option Frame) :
    Prop :=
  match s.client.form with
  | .rs =>
    (unpackRs s.cfg item s.client.targetId s.cfg.hostId = .error st ∧ frame = none) ∨
    ∃ f, unpackRs s.cfg item s.client.targetId s.cfg.hostId = .ok f ∧ frame = some (.rs f) ∧
      st = if f.rw ≠ rw then .rw else if f.cmd ≠ d.cmd then .cmd
        else if f.state ≠ s.client.tstate then .state else .ok
  | .can =>
    (128 ≤ s.client.targetId.toNat ∧ st = .ill ∧ frame = none) ∨
    (s.client.targetId.toNat < 128 ∧
      unpackCan s.cfg item (BitVec.ofNat 7 s.client.targetId.toNat) = .error st ∧ frame = none) ∨
    (s.client.targetId.toNat < 128 ∧
      ∃ f, unpackCan s.cfg item (BitVec.ofNat 7 s.client.targetId.toNat) = .ok f ∧ frame = some (.can f) ∧
        st = if f.rw ≠ rw then .rw else if f.cmd ≠ d.cmd then .cmd
          else if f.state ≠ s.client.tstate then .state else .ok)

/-- The UNPACK command that PEND issues on an item, with its response (R227). -/
def itemResponse (s : State) (item : List Byte) : Response :=
  match s.client.form with
  | .rs => ⟨0x12, unpackRsReply s.cfg s.client.targetId s.cfg.hostId item⟩
  | .can => ⟨0x13, unpackCanReply s.cfg s.client.targetId item⟩

/-- The payload of a frame, of either form. -/
def payloadOf : Option Frame → List Byte
  | none => []
  | some (.rs f) => f.data
  | some (.can f) => f.data

/-- The PEND that is at `stage` ends at the host's next turn, with this status and frame (R227). -/
def PendEnds (s : State) (stage : Stage) (st : Status) (frame : Option Frame) : Prop :=
  match stage with
  | .pendRead _ _ timeout =>
    s.port = [] ∧ s.rdPend = false ∧ frame = none ∧
      (s.dead = true ∧ st = .dead ∨ s.dead = false ∧ s.q = [] ∧ timeout = 0 ∧ st = .timeout)
  | .pendWait _ _ =>
    frame = none ∧ (s.client.inbox = some ⟨.none, []⟩ ∧ st = .timeout ∨
      s.client.inbox = some ⟨.dead, []⟩ ∧ st = .dead)
  | .pendUnpack rw d item => s.port = [] ∧ ItemResult s rw d item st frame
  | .connectFlush _ _ | .sendQuery _ _ _ | .sendPack _ _ _ | .sendWrite _ => False

/-- The SEND that is at `stage` ends at the host's next turn, with this status (R225): DEAD from IS.ERR or from
TX.WRITE, LEN from the sizing of the request or from PACK, ILL for a CAN-form target id that is no 7-bit value
(log 28), or OK. -/
def SendEnds (s : State) (stage : Stage) (st : Status) : Prop :=
  s.port = [] ∧
  match stage with
  | .sendQuery rw d payload =>
    s.dead = true ∧ st = .dead ∨ s.dead = false ∧ requestLength d rw payload = none ∧ st = .len
  | .sendPack _ _ data =>
    s.client.form = .rs ∧ 125 < data.length ∧ st = .len ∨
    s.client.form = .can ∧ s.client.targetId.toNat < 128 ∧ 7 < data.length ∧ st = .len ∨
    s.client.form = .can ∧ 128 ≤ s.client.targetId.toNat ∧ st = .ill
  | .sendWrite _ => s.dead = true ∧ st = .dead ∨ s.dead = false ∧ st = .ok
  | .connectFlush _ _ | .pendRead _ _ _ | .pendWait _ _ | .pendUnpack _ _ _ => False

/-- First place of the same-cycle order of 60_exceptions.md R262: the terminal events. -/
abbrev IsTerminal (i : Instr) : Prop := i = .close ∨ i = .ioErr

/-- Second place: FLUSH, and the calls whose first command is FLUSH (44_host_client.md R223, R230, R232). -/
abbrev IsFlush (i : Instr) : Prop :=
  (∃ fl frm dst, i = .flush fl frm dst) ∨ (∃ target aux, i = .connectTo target aux) ∨
    (∃ d a b, i = .getRange d a b) ∨ i = .connectDevice

/-- Third place: what can push an item. -/
abbrev IsPush (i : Instr) : Prop := (∃ bytes, i = .rxChunk bytes) ∨ ∃ b, i = .decFeed b

/-- From `s`, `k` ticks and any other steps of any agents lead to `t`, and the pending read stays pending all the
while. A step is an instruction, or a turn of the host procedure in progress, or the command port's ILL to an undefined
opcode (R92), with whatever the ports, the chunk in delivery, the schedule, the template's form and state bit and the
waiting callers then are: every step of every agent but reset is made of these. -/
inductive PendsFor (s : State) : Nat → State → Prop where
  | start : PendsFor s 0 s
  | other {k : Nat} {t u : State} (i : Instr) :
    PendsFor s k t → i ≠ .tick → exec i t = .next u → u.rdPend = true → PendsFor s k u
  | tick {k : Nat} {t u : State} : PendsFor s k t → exec .tick t = .next u → u.rdPend = true → PendsFor s (k + 1) u
  | client {k : Nat} {t : State} : PendsFor s k t → PendsFor s k (clientTurn t)
  | undefinedCode {k : Nat} {t : State} (code : Byte) : PendsFor s k t → PendsFor s k (reply code (raise .ill) t)
  | moved {k : Nat} {t : State} (port rxRest : List Byte) (inp : List Stim) (sched : List Turn) (form : Form)
      (tstate : Bool) (caller : Nat) (waiting : List (Nat × Instr)) :
    PendsFor s k t → PendsFor s k { t with
      port := port, rxRest := rxRest, inp := inp, sched := sched
      client := { t.client with form := form, tstate := tstate, caller := caller, waiting := waiting } }

/-- `n` turns of the host agent with no step of another agent between them. -/
def clientTurns : Nat → State → State
  | 0, s => s
  | n + 1, s => clientTurns n (clientTurn s)

/-- `n` turns of the RX agent with no step of another agent between them. -/
def rxTurns : Nat → State → Host.Outcome State Fault Refusal
  | 0, s => .next s
  | n + 1, s =>
    match rxTurn s with
    | .next t => rxTurns n t
    | .fault r => .fault r
    | .refused r => .refused r

/-- The bytes fed to the decoder one DEC.FEED at a time. -/
def feed (bytes : List Byte) (s : State) : Host.Outcome State Fault Refusal :=
  runInstrs (bytes.map .decFeed) s

/-- `n` ticks with no other step between them. -/
def ticks (n : Nat) (s : State) : Host.Outcome State Fault Refusal :=
  runInstrs (List.replicate n .tick) s

end Sys2Proof.Machine
end

