-- ==== Sys2Proof/Certificates/Slice0/Obligations.lean ====
section
/-! DEFINITION. The statements about UTFE, one `def Obligations.<Name> : Prop` each. Every docstring names the rule of
spec/ that the statement formalises. -/

open Sys2Proof Sys2Proof.Machine

/-! ## Encoding -/

/-- Every well-formed instruction decodes, at its own port and with the values its caller passes, from its
encoding, whatever follows it (30_encoding.md R85 to R90). -/
def Obligations.DecodeOfEncode : Prop :=
  ∀ (i : Instr) (rest : List Byte), i.WellFormed → decode i.port i.callArgs (encode i ++ rest) = .ok i rest

/-- What decodes is the encoding of what it decodes to, so every spelling has one meaning and no bit of it is
dropped (R85 to R90), and it is well-formed. -/
def Obligations.EncodeOfDecode : Prop :=
  ∀ (p : Port) (a : CallArgs) (bytes rest : List Byte) (i : Instr), decode p a bytes = .ok i rest →
    encode i ++ rest = bytes ∧ i.port = p ∧ i.WellFormed

/-- Words written out from the tables of R86, R89 and R90 decode to the instructions they stand for. -/
def Obligations.TableWordsDecode : Prop :=
  decodeTableWord 8 0x01 = some .crcClr ∧ decodeTableWord 16 0x3102 = some (.crcUpd 0x31) ∧
    decodeTableWord 48 0x003001010A10 = some (.packRs 0x0A 0x01 0x01 0x30 []) ∧
    decodeTableWord 24 0x640020 = some (.qRead 0x00 0x64) ∧
    decodeTableWord 32 0x0A010321 = some (.flush 0x03 0x01 0x0A) ∧
    decodeTableWord 16 0xFE31 = some (.decFeed 0xFE) ∧ decodeTableWord 8 0x3F = some .tick ∧
    decodeTableWord 8 0x44 = some .connectDevice ∧ decodeTableWord 8 0x05 = none

/-- A reserved opcode at the head of the command port is answered ILL, consumes its one byte and changes nothing
else (R92). -/
def Obligations.ReservedOpcodeAnswersIll : Prop :=
  ∀ (s : State) (ts : List Turn) (code : Byte) (rest : List Byte),
    code.toNat = 0x00 ∨ (0x05 ≤ code.toNat ∧ code.toNat ≤ 0x0F) ∨ (0x14 ≤ code.toNat ∧ code.toNat ≤ 0x1F) ∨
      0x25 ≤ code.toNat →
    s.sched = .port :: ts → s.port = code :: rest →
    step s = .next { s with sched := ts, port := rest, resp := s.resp ++ [⟨code, ⟨.ill, []⟩⟩] }

/-! ## The step -/

/-- A step runs the instruction decoded at the port that has the turn: `step` is `exec` of it with its bytes taken
from the port and the turn taken from the schedule (R12). At its turn the host procedure in progress issues its next
command (R12, R90, log 11). Bytes that come for the command port are put behind those on it, in order (R84), and a
command of which not all bytes have come stays there (R85). A caller's choice of the template's form and state bit
(R220), or of who calls next, sets those fields only (log 23, log 12). With an empty schedule the chunk in delivery
goes first, then the command port, then the procedure in progress, last the next stimulus (the default order is the
model's choice: log 5). -/
def Obligations.StepRunsTheDecodedInstruction : Prop :=
  (∀ (s : State) (ts : List Turn) (i : Instr) (rest : List Byte), s.sched = .port :: ts →
    decodeCommand s.port = .ok i rest → step s = exec i { s with sched := ts, port := rest }) ∧
  (∀ (s : State) (ts : List Turn) (p : Port) (a : CallArgs) (bytes left : List Byte) (more : List Stim)
      (i : Instr), s.sched = .input :: ts → s.inp = .msg p a bytes :: more → p ≠ .command →
    (p = .rx → s.rxRest = []) → decode p a bytes = .ok i left →
    step s = exec i { s with sched := ts, inp := if left = [] then more else .msg p a left :: more }) ∧
  (∀ (s : State) (ts : List Turn) (b : Byte) (bs : List Byte), s.sched = .rx :: ts → s.rxRest = b :: bs →
    step s = exec (.decFeed b) { s with sched := ts, rxRest := bs }) ∧
  (∀ (s : State) (b : Byte) (bs : List Byte), s.sched = [] → s.rxRest = b :: bs →
    step s = exec (.decFeed b) { s with rxRest := bs }) ∧
  (∀ (s : State) (i : Instr) (rest : List Byte), s.sched = [] → s.rxRest = [] → s.rdPend = false →
    decodeCommand s.port = .ok i rest → step s = exec i { s with port := rest }) ∧
  (∀ (s : State) (ts : List Turn), s.sched = .client :: ts → step s = .next (clientTurn { s with sched := ts })) ∧
  (∀ (s : State) (ts : List Turn) (a : CallArgs) (bytes : List Byte) (more : List Stim), s.sched = .input :: ts →
    s.inp = .msg .command a bytes :: more →
    step s = .next { s with sched := ts, inp := more, port := s.port ++ bytes }) ∧
  (∀ (i : Instr) (front back : List Byte), i.WellFormed → i.port = .command → encode i = front ++ back →
    back ≠ [] → decodeCommand front = .incomplete) ∧
  (∀ (s : State) (ts : List Turn), s.sched = .port :: ts → decodeCommand s.port = .incomplete →
    step s = .next { s with sched := ts }) ∧
  (∀ (s : State) (ts : List Turn) (form : Form) (tstate : Bool) (more : List Stim), s.sched = .input :: ts →
    s.inp = .template form tstate :: more →
    step s = .next { s with sched := ts, inp := more,
                            client := { s.client with form := form, tstate := tstate } }) ∧
  (∀ (s : State) (ts : List Turn) (k : Nat) (more : List Stim), s.sched = .input :: ts →
    s.inp = .caller k :: more →
    step s = .next { s with sched := ts, inp := more, client := { s.client with caller := k } }) ∧
  (∀ s : State, s.sched = [] → s.rxRest = [] → s.port = [] → clientReady s = true →
    step s = .next (clientTurn s)) ∧
  (∀ s : State, s.sched = [] → s.rxRest = [] → s.port = [] → s.client.proc = none → s.client.waiting = [] →
    step s = step { s with sched := [.input] })

/-! ## The Checksum unit -/

/-- CRC.CLR (R104): the accumulator takes its initial value, the answer is OK, nothing else changes; and with the
parameters of R6 a CRC.GET after it answers FF FF. -/
def Obligations.CrcClrInitialisesCrc : Prop :=
  encode .crcClr = [0x01] ∧
  (∀ s : State, exec .crcClr s =
    .next { s with crc := s.cfg.crcInit, resp := s.resp ++ [⟨0x01, ⟨.ok, []⟩⟩] }) ∧
  (∀ s : State, s.cfg = Config.suggested → ∃ t, exec .crcClr s = .next t ∧
    exec .crcGet t = .next { t with resp := t.resp ++ [⟨0x03, ⟨.ok, [0xFF, 0xFF]⟩⟩] })

/-- CRC.UPD (R105): the byte is folded in by `crc_upd`, the answer is OK, nothing else changes. -/
def Obligations.CrcUpdFoldsOneByte : Prop :=
  (∀ b : Byte, encode (.crcUpd b) = [0x02, b]) ∧
  (∀ (b : Byte) (s : State), exec (.crcUpd b) s =
    .next { s with crc := crcUpd s.cfg s.crc b, resp := s.resp ++ [⟨0x02, ⟨.ok, []⟩⟩] }) ∧
  crcUpd Config.suggested 0xFFFF 0x00 = 0x40BF ∧ crcUpd Config.suggested 0xFFFF 0x31 = 0x947E

/-- CRC.GET (R106): the two bytes of the accumulator after the final exclusive-or, in wire order; nothing but the
response port changes. With the parameters of R6 it answers FF FF right after reset, and 37 4B after the nine bytes
"123456789". -/
def Obligations.CrcGetReadsCrc : Prop :=
  encode .crcGet = [0x03] ∧
  (∀ s : State, s.cfg.crcLowFirst = true → exec .crcGet s =
    .next { s with resp := s.resp ++ [⟨0x03, ⟨.ok,
      [(s.crc ^^^ s.cfg.crcXorOut).extractLsb' 0 8, (s.crc ^^^ s.cfg.crcXorOut).extractLsb' 8 8]⟩⟩] }) ∧
  (∀ s : State, s.cfg.crcLowFirst = false → exec .crcGet s =
    .next { s with resp := s.resp ++ [⟨0x03, ⟨.ok,
      [(s.crc ^^^ s.cfg.crcXorOut).extractLsb' 8 8, (s.crc ^^^ s.cfg.crcXorOut).extractLsb' 0 8]⟩⟩] }) ∧
  (∀ s : State, s.cfg = Config.suggested →
    s.crc = crcFold s.cfg 0xFFFF [0x31, 0x32, 0x33, 0x34, 0x35, 0x36, 0x37, 0x38, 0x39] →
    exec .crcGet s = .next { s with resp := s.resp ++ [⟨0x03, ⟨.ok, [0x37, 0x4B]⟩⟩] }) ∧
  exec .crcGet State.reset = .next { State.reset with resp := [⟨0x03, ⟨.ok, [0xFF, 0xFF]⟩⟩] }

/-- CRC.BUF (R107): it answers `crc_bytes` of its bytes, leaves the accumulator as CRC.CLR and a CRC.UPD of each
byte do, and answers what the CRC.GET after them answers. -/
def Obligations.CrcBufIsClearUpdateGet : Prop :=
  (∀ bytes : List Byte, encode (.crcBuf bytes) = 0x04 :: BitVec.ofNat 8 bytes.length :: bytes) ∧
  (∀ (bytes : List Byte) (s : State), ∃ t u v,
    exec (.crcBuf bytes) s = .next t ∧
    t = { s with crc := t.crc, resp := s.resp ++ [⟨0x04, ⟨.ok, crcBytes s.cfg bytes⟩⟩] } ∧
    runInstrs (.crcClr :: bytes.map .crcUpd) s = .next u ∧ u.crc = t.crc ∧
    exec .crcGet u = .next v ∧ v.resp = u.resp ++ [⟨0x03, ⟨.ok, crcBytes s.cfg bytes⟩⟩]) ∧
  crcBytes Config.suggested [0x01, 0x03, 0x00, 0x00, 0x00, 0x0A] = [0xC5, 0xCD] ∧
  crcBytes Config.suggested [] = [0xFF, 0xFF]

/-- For each byte, `crc_upd` is a bijection on 16-bit values when the polynomial's bit 15 is set (R108 (a)). -/
def Obligations.CrcUpdIsBijective : Prop :=
  ∀ (c : Config) (b : Byte), c.crcPolyR.getLsbD 15 = true → Function.Bijective fun v => crcUpd c v b

/-- The checksum is affine over bytewise exclusive-or of strings of one length (R108 (b)). -/
def Obligations.CrcIsAffine : Prop :=
  ∀ (c : Config) (A B : List Byte), A.length = B.length →
    crc16 c A ^^^ crc16 c B ^^^ crc16 c (List.replicate A.length 0) = crc16 c (A.zipWith (· ^^^ ·) B)

/-- Changing one byte of a string changes its checksum (R108 (c)). -/
def Obligations.OneByteChangeChangesCrc : Prop :=
  ∀ (c : Config) (front back : List Byte) (x y : Byte), c.crcPolyR.getLsbD 15 = true → x ≠ y →
    crc16 c (front ++ x :: back) ≠ crc16 c (front ++ y :: back)

/-- The residue of a string followed by its own checksum bytes is zero (R108 (d)). -/
def Obligations.CrcResidueIsZero : Prop :=
  ∀ (c : Config) (B : List Byte), c.crcXorOut = 0 → c.crcLowFirst = true → crc16 c (B ++ crcBytes c B) = 0

/-- Only the Checksum unit's commands and reset write the accumulator (R21, R109): every other instruction leaves it, and
so does every turn of the host procedure in progress, its PACK and UNPACK among them. In terms of steps, where those who
wait for the lock have called one of the five procedures: a step changes it only when it takes reset, runs one of those
three commands from the command port, or performs a clock cycle. -/
def Obligations.OnlyChecksumCommandsWriteCrc : Prop :=
  (∀ (i : Instr) (s t : State), i ≠ .crcClr → (∀ b, i ≠ .crcUpd b) → (∀ bytes, i ≠ .crcBuf bytes) →
    exec i s = .next t → t.crc = s.crc) ∧
  (∀ s : State, (clientTurn s).crc = s.crc) ∧
  (∀ s t : State, (∀ w ∈ s.client.waiting, w.2.port = .call) → step s = .next t →
    t.crc = s.crc ∨ (∃ d more, s.inp = .reset d :: more ∧ t.inp = more ∧ t.crc = s.cfg.crcInit) ∨
      (∃ is more, s.inp = .cycle is :: more) ∨
      ∃ i rest, decodeCommand s.port = .ok i rest ∧
        (i = .crcClr ∨ (∃ b, i = .crcUpd b) ∨ ∃ bytes, i = .crcBuf bytes))

/-! ## The Frame Codec -/

/-- PACK.RS (R120, R121, R122): a must-be-zero bit answers ILL; else more than 125 bytes answer LEN; else the
answer is the count and the frame of R72 with its checksum. Nothing but the response port changes. -/
def Obligations.PackRsAnswersTheFrame : Prop :=
  ∀ (frm dst fl cmd : Byte) (data : List Byte) (s : State),
    encode (.packRs frm dst fl cmd data) =
      0x10 :: frm :: dst :: fl :: cmd :: BitVec.ofNat 8 data.length :: data ∧
    (4 ≤ fl.toNat ∨ 128 ≤ cmd.toNat → exec (.packRs frm dst fl cmd data) s =
      .next { s with resp := s.resp ++ [⟨0x10, ⟨.ill, []⟩⟩] }) ∧
    (fl.toNat < 4 → cmd.toNat < 128 → 125 < data.length → exec (.packRs frm dst fl cmd data) s =
      .next { s with resp := s.resp ++ [⟨0x10, ⟨.len, []⟩⟩] }) ∧
    (fl.toNat < 4 → cmd.toNat < 128 → data.length ≤ 125 → ∀ B : List Byte,
      B = frm :: dst :: BitVec.ofNat 8 (128 * (fl.toNat / 2) + (data.length + 1)) ::
        BitVec.ofNat 8 (128 * (fl.toNat % 2) + cmd.toNat) :: data →
      exec (.packRs frm dst fl cmd data) s = .next { s with resp := s.resp ++
        [⟨0x10, ⟨.ok, BitVec.ofNat 8 (data.length + 6) :: (B ++ crcBytes s.cfg B)⟩⟩] })

/-- PACK.CAN (R124, R125, R126), in the same way with the layout of R76 and at most 7 bytes. -/
def Obligations.PackCanAnswersTheFrame : Prop :=
  ∀ (id fl cmd : Byte) (data : List Byte) (s : State),
    encode (.packCan id fl cmd data) = 0x11 :: id :: fl :: cmd :: BitVec.ofNat 8 data.length :: data ∧
    (128 ≤ id.toNat ∨ 4 ≤ fl.toNat ∨ 128 ≤ cmd.toNat → exec (.packCan id fl cmd data) s =
      .next { s with resp := s.resp ++ [⟨0x11, ⟨.ill, []⟩⟩] }) ∧
    (id.toNat < 128 → fl.toNat < 4 → cmd.toNat < 128 → 7 < data.length → exec (.packCan id fl cmd data) s =
      .next { s with resp := s.resp ++ [⟨0x11, ⟨.len, []⟩⟩] }) ∧
    (id.toNat < 128 → fl.toNat < 4 → cmd.toNat < 128 → data.length ≤ 7 → ∀ B : List Byte,
      B = 0xAA :: 0x00 :: BitVec.ofNat 8 (128 * (fl.toNat / 2) + id.toNat) ::
        BitVec.ofNat 8 (data.length + 1) :: BitVec.ofNat 8 (128 * (fl.toNat % 2) + cmd.toNat) :: data →
      exec (.packCan id fl cmd data) s = .next { s with resp := s.resp ++
        [⟨0x11, ⟨.ok, BitVec.ofNat 8 (data.length + 7) :: (B ++ crcBytes s.cfg B)⟩⟩] })

/-- UNPACK.RS (R128, R129): the first check that fails decides the status, in the order LEN, M_ID, S_ID, CRC; when
none fails the answer is the frame's fields. Nothing but the response port changes. -/
def Obligations.UnpackRsChecksInOrder : Prop :=
  ∀ (e0 e1 : Byte) (B : List Byte) (s : State) (len : Nat) (answer : Reply → State) (sized id0 id1 sum : Prop),
    len = (B.getD 2 0).toNat % 128 →
    (∀ r, answer r = { s with resp := s.resp ++ [⟨0x12, r⟩] }) →
    (sized ↔ 6 ≤ B.length ∧ 1 ≤ len ∧ len ≤ 126 ∧ B.length = len + 5) →
    (id0 ↔ B.getD 0 0 = e0 ∨ B.getD 0 0 = 0x55 ∨ e0 = 0x55) →
    (id1 ↔ B.getD 1 0 = e1 ∨ B.getD 1 0 = 0x55 ∨ e1 = 0x55) →
    (sum ↔ crcBytes s.cfg (B.take (len + 3)) = B.drop (len + 3)) →
    encode (.unpackRs e0 e1 B) = 0x12 :: e0 :: e1 :: BitVec.ofNat 8 B.length :: B ∧
    (¬sized → exec (.unpackRs e0 e1 B) s = .next (answer ⟨.len, []⟩)) ∧
    (sized → ¬id0 → exec (.unpackRs e0 e1 B) s = .next (answer ⟨.mId, []⟩)) ∧
    (sized → id0 → ¬id1 → exec (.unpackRs e0 e1 B) s = .next (answer ⟨.sId, []⟩)) ∧
    (sized → id0 → id1 → ¬sum → exec (.unpackRs e0 e1 B) s = .next (answer ⟨.crc, []⟩)) ∧
    (sized → id0 → id1 → sum → exec (.unpackRs e0 e1 B) s = .next (answer ⟨.ok,
      [B.getD 0 0, B.getD 1 0, BitVec.ofNat 8 (2 * ((B.getD 2 0).toNat / 128) + (B.getD 3 0).toNat / 128),
        BitVec.ofNat 8 ((B.getD 3 0).toNat % 128), BitVec.ofNat 8 (len - 1)] ++ (B.drop 4).take (len - 1)⟩))

/-- UNPACK.CAN (R132, R133): ILL, LEN, HEAD, S_ID, CRC in that order, else the frame's fields; the reserved bits of
byte 3 are ignored (R91 (c)). Nothing but the response port changes. -/
def Obligations.UnpackCanChecksInOrder : Prop :=
  ∀ (exp : Byte) (B : List Byte) (s : State) (len : Nat) (answer : Reply → State)
    (legal sized sync up id sum : Prop),
    len = (B.getD 3 0).toNat % 16 →
    (∀ r, answer r = { s with resp := s.resp ++ [⟨0x13, r⟩] }) →
    (legal ↔ exp.toNat < 128) →
    (sized ↔ 7 ≤ B.length ∧ 1 ≤ len ∧ len ≤ 8 ∧ B.length = len + 6) →
    (sync ↔ B.getD 0 0 = 0xAA) → (up ↔ B.getD 1 0 = 0x00) →
    (id ↔ (B.getD 2 0).toNat % 128 = exp.toNat ∨ (B.getD 2 0).toNat % 128 = s.cfg.wildcardCan.toNat ∨
      exp.toNat = s.cfg.wildcardCan.toNat) →
    (sum ↔ crcBytes s.cfg (B.take (len + 4)) = B.drop (len + 4)) →
    encode (.unpackCan exp B) = 0x13 :: exp :: BitVec.ofNat 8 B.length :: B ∧
    (¬legal → exec (.unpackCan exp B) s = .next (answer ⟨.ill, []⟩)) ∧
    (legal → ¬sized → exec (.unpackCan exp B) s = .next (answer ⟨.len, []⟩)) ∧
    (legal → sized → ¬sync → exec (.unpackCan exp B) s = .next (answer ⟨.head, []⟩)) ∧
    (legal → sized → sync → ¬(up ∧ id) → exec (.unpackCan exp B) s = .next (answer ⟨.sId, []⟩)) ∧
    (legal → sized → sync → up ∧ id → ¬sum → exec (.unpackCan exp B) s = .next (answer ⟨.crc, []⟩)) ∧
    (legal → sized → sync → up ∧ id → sum → exec (.unpackCan exp B) s = .next (answer ⟨.ok,
      [BitVec.ofNat 8 ((B.getD 2 0).toNat % 128),
        BitVec.ofNat 8 (2 * ((B.getD 2 0).toNat / 128) + (B.getD 4 0).toNat / 128),
        BitVec.ofNat 8 ((B.getD 4 0).toNat % 128), BitVec.ofNat 8 (len - 1)] ++ (B.drop 5).take (len - 1)⟩))

/-- RS-form round trip (R136, its RS-form clauses): a packed frame unpacks to itself under any expectations its
ids match, and a buffer that unpacks to a frame is that frame packed. -/
def Obligations.RsFramesRoundTrip : Prop :=
  (∀ (c : Config) (f : FrameRS) (e0 e1 : Byte), f.data.length ≤ 125 → idMatch f.frm e0 wildcardRs = true →
    idMatch f.dst e1 wildcardRs = true → unpackRs c (packRs c f) e0 e1 = .ok f) ∧
  (∀ (c : Config) (f : FrameRS) (e0 e1 : Byte) (B : List Byte), unpackRs c B e0 e1 = .ok f → packRs c f = B)

/-- CAN-form round trip (R136, its CAN-form clauses). The second clause is the model's reading of R136's last sentence,
not the sentence itself (log 21, DEDUCED from R91 (c), R125, R133): the bytes before the checksum agree up to the
reserved bits of byte 3, and the whole buffers agree when those bits are 0. -/
def Obligations.CanFramesRoundTrip : Prop :=
  (∀ (c : Config) (f : FrameCAN), f.data.length ≤ 7 → unpackCan c (packCan c f) f.id = .ok f) ∧
  (∀ (c : Config) (f : FrameCAN) (e : Field7) (B : List Byte), unpackCan c B e = .ok f →
    (packCan c f).take (B.length - 2) = (B.set 3 (B.getD 3 0 &&& 0x0F)).take (B.length - 2) ∧
      (B.getD 3 0 &&& 0xF0 = 0 → packCan c f = B))

/-- One flipped bit of a packed RS-form frame is always detected, with exactly the status of R137. -/
def Obligations.FlippedBitOfRsFrameIsDetected : Prop :=
  ∀ (c : Config) (f : FrameRS) (k j : Nat) (P P' : List Byte), c.crcPolyR.getLsbD 15 = true →
    f.data.length ≤ 125 → P = packRs c f → k < P.length → j < 8 →
    P' = P.set k (P.getD k 0 ^^^ BitVec.twoPow 8 j) →
    unpackRs c P' f.frm f.dst = .error
      (if k = 0 then (if P'.getD 0 0 = 0x55 ∨ f.frm = 0x55 then .crc else .mId)
       else if k = 1 then (if P'.getD 1 0 = 0x55 ∨ f.dst = 0x55 then .crc else .sId)
       else if k = 2 ∧ j < 7 then .len
       else .crc)

/-- One flipped bit of a packed CAN-form frame is always detected, with exactly the status of R137. -/
def Obligations.FlippedBitOfCanFrameIsDetected : Prop :=
  ∀ (c : Config) (f : FrameCAN) (k j : Nat) (P P' : List Byte), c.crcPolyR.getLsbD 15 = true →
    f.data.length ≤ 7 → P = packCan c f → k < P.length → j < 8 →
    P' = P.set k (P.getD k 0 ^^^ BitVec.twoPow 8 j) →
    unpackCan c P' f.id = .error
      (if k = 0 then .head
       else if k = 1 then .sId
       else if k = 2 ∧ j < 7 then
        (if low7 (P'.getD 2 0) = c.wildcardCan ∨ f.id = c.wildcardCan then .crc else .sId)
       else if k = 3 ∧ j < 4 then .len
       else .crc)

/-! ## The Streaming Decoder -/

/-- DEC.FEED (R26, R150, R151, R296, R297): ignored while DEAD is set; refused, by name, before a FLUSH with both update
bits has completed; else its next state, in each state of the decoder. -/
def Obligations.DecFeedTransitions : Prop :=
  (∀ (b : Byte) (s : State), s.dead = true → exec (.decFeed b) s = .next s) ∧
  (∀ (b : Byte) (s : State), s.dead = false → s.expSet = false →
    exec (.decFeed b) s = .refused .expectationsUnwritten) ∧
  ∀ (b : Byte) (s : State), s.cfg.Ok → s.dead = false → s.expSet = true →
    (s.dstate = .awaitFrom → (b = s.expFrom ∨ b = 0x55 ∨ s.expFrom = 0x55) → exec (.decFeed b) s =
      .next { s with rxbuf := writeByte s.rxbuf 0 b, rxn := 1, dstate := .awaitTo }) ∧
    (s.dstate = .awaitFrom → ¬(b = s.expFrom ∨ b = 0x55 ∨ s.expFrom = 0x55) →
      exec (.decFeed b) s = .next s) ∧
    (s.dstate = .awaitTo → (b = s.expTo ∨ b = 0x55 ∨ s.expTo = 0x55) → exec (.decFeed b) s =
      .next { s with rxbuf := writeByte s.rxbuf 1 b, rxn := 2, dstate := .awaitLen }) ∧
    (s.dstate = .awaitTo → ¬(b = s.expTo ∨ b = 0x55 ∨ s.expTo = 0x55) → exec (.decFeed b) s =
      .next { s with rxn := 0, dstate := .awaitFrom }) ∧
    (s.dstate = .awaitLen → b.toNat % 128 = 0 ∨ s.cfg.decLenCap < b.toNat % 128 → exec (.decFeed b) s =
      .next { s with rxn := 0, dstate := .awaitFrom }) ∧
    (s.dstate = .awaitLen → 1 ≤ b.toNat % 128 → b.toNat % 128 ≤ s.cfg.decLenCap → exec (.decFeed b) s =
      .next { s with rxbuf := writeByte s.rxbuf 2 b, rxn := 3, drem := BitVec.ofNat 7 b.toNat,
                     dstate := .awaitData }) ∧
    (s.dstate = .awaitData → s.rxn.toNat < s.cfg.rxbufSize → 2 ≤ s.drem.toNat → exec (.decFeed b) s =
      .next { s with rxbuf := writeByte s.rxbuf s.rxn.toNat b, rxn := s.rxn + 1, drem := s.drem - 1 }) ∧
    (s.dstate = .awaitData → s.rxn.toNat < s.cfg.rxbufSize → s.drem = 1 → exec (.decFeed b) s =
      .next { s with rxbuf := writeByte s.rxbuf s.rxn.toNat b, rxn := s.rxn + 1, drem := 0,
                     dstate := .awaitCrc1 }) ∧
    (s.dstate = .awaitCrc1 → s.rxn.toNat < s.cfg.rxbufSize → exec (.decFeed b) s =
      .next { s with rxbuf := writeByte s.rxbuf s.rxn.toNat b, rxn := s.rxn + 1, dstate := .awaitCrc2 }) ∧
    (s.dstate = .awaitCrc2 → s.rxn.toNat < s.cfg.rxbufSize → 5 ≤ s.rxn.toNat →
      ∀ (m : List Host.Cell) (item : List Byte) (t : State), m = writeByte s.rxbuf s.rxn.toNat b →
        item = readBytes m 0 (s.rxn.toNat + 1) →
        t = { s with rxbuf := m, rxn := 0, dstate := .awaitFrom } →
        (crcBytes s.cfg (item.take (item.length - 2)) = item.drop (item.length - 2) →
          exec (.decFeed b) s = .next (qPush item t)) ∧
        (crcBytes s.cfg (item.take (item.length - 2)) ≠ item.drop (item.length - 2) →
          exec (.decFeed b) s = .next t))

/-- A valid frame that starts in AWAIT_FROM is pushed whole, and two fed one after the other are pushed in order
(R162, which the spec derives from R151); what RXBUF and DREM then hold is left open. -/
def Obligations.FramesFedArePushedInOrder : Prop :=
  ∀ (s : State) (P1 P2 : List Byte) (f1 f2 : FrameRS), StateInv s → s.dead = false → s.expSet = true →
    s.dstate = .awaitFrom →
    unpackRs s.cfg P1 s.expFrom s.expTo = .ok f1 → (P1.getD 2 0).toNat % 128 ≤ s.cfg.decLenCap →
    unpackRs s.cfg P2 s.expFrom s.expTo = .ok f2 → (P2.getD 2 0).toNat % 128 ≤ s.cfg.decLenCap →
    (∃ t, feed P1 s = .next t ∧ t.dstate = .awaitFrom ∧
      t = { qPush P1 s with rxbuf := t.rxbuf, drem := t.drem }) ∧
    (∃ t, feed (P1 ++ P2) s = .next t ∧ t.dstate = .awaitFrom ∧
      t = { qPush P2 (qPush P1 s) with rxbuf := t.rxbuf, drem := t.drem })

/-- Resynchronisation (R163): garbage of which no byte is accepted as a from-id, followed by a valid frame, pushes
exactly that frame. -/
def Obligations.GarbageThenFrameIsPushed : Prop :=
  ∀ (s : State) (G P : List Byte) (f : FrameRS), StateInv s → s.dead = false → s.expSet = true →
    s.dstate = .awaitFrom → s.expFrom ≠ 0x55 →
    (∀ g ∈ G, g ≠ s.expFrom ∧ g ≠ 0x55) →
    unpackRs s.cfg P s.expFrom s.expTo = .ok f → (P.getD 2 0).toNat % 128 ≤ s.cfg.decLenCap →
    ∃ t, feed (G ++ P) s = .next t ∧ t.dstate = .awaitFrom ∧
      t = { qPush P s with rxbuf := t.rxbuf, drem := t.drem }

/-- Chunk-size independence (R161): on the decoder path a chunk, delivered by the RX agent's turns, does what the
DEC.FEED of each of its bytes does, and so do two chunks that it is cut into, the second delivered after the turns
of the first. -/
def Obligations.ChunkIsTheFeedOfItsBytes : Prop :=
  ∀ (s : State) (A B : List Byte), s.dead = false → s.decAttached = true → s.rxRest = [] →
    (∃ t, exec (.rxChunk (A ++ B)) s = .next t ∧ rxTurns (A ++ B).length t = feed (A ++ B) s) ∧
    (∃ t, exec (.rxChunk A) s = .next t ∧
      (∀ u, rxTurns A.length t = .next u → ∃ v, exec (.rxChunk B) u = .next v ∧
        rxTurns B.length v = feed (A ++ B) s) ∧
      (∀ r, rxTurns A.length t = .refused r → feed (A ++ B) s = .refused r) ∧
      (∀ r, rxTurns A.length t = .fault r → feed (A ++ B) s = .fault r))

/-- Only DEC.FEED writes RXBUF and DREM (R22, R24, R25), no turn of the host procedure in progress does, and it stores at most the one byte at offset RXN: every
other byte of RXBUF reads as before (R52, R151). -/
def Obligations.OnlyDecFeedWritesTheBuffer : Prop :=
  (∀ (i : Instr) (s t : State), (∀ b, i ≠ .decFeed b) → exec i s = .next t →
    (∀ a, readByte t.rxbuf a = readByte s.rxbuf a) ∧ t.drem = s.drem) ∧
  (∀ s : State, (∀ a, readByte (clientTurn s).rxbuf a = readByte s.rxbuf a) ∧ (clientTurn s).drem = s.drem) ∧
  (∀ (b : Byte) (s t : State) (a : Nat), StateInv s → exec (.decFeed b) s = .next t → a ≠ s.rxn.toNat →
    readByte t.rxbuf a = readByte s.rxbuf a)

/-! ## The queue, the arbiter and transport control -/

/-- RX.CHUNK (R182, R183): ignored while dead or when empty; on the decoder path its bytes go to the RX agent's
feeds; on the raw path the chunk is one item, delivered to the pending read of whoever issued it, or appended with the
eviction of the oldest item when the queue is full (R181). -/
def Obligations.RxChunkFillsTheQueue : Prop :=
  ∀ (bytes : List Byte) (s : State),
    (s.dead = true ∨ bytes = [] → exec (.rxChunk bytes) s = .next s) ∧
    (s.dead = false → bytes ≠ [] → s.decAttached = true →
      exec (.rxChunk bytes) s = .next { s with rxRest := s.rxRest ++ bytes }) ∧
    (s.dead = false → bytes ≠ [] → s.decAttached = false → bytes.length ≤ s.cfg.itemMax →
      (s.rdPend = true → s.respChan = .commandPort → exec (.rxChunk bytes) s =
        .next { s with rdPend := false, rdTmr := 0, respChan := .idle,
                       resp := s.resp ++ [⟨0x20, ⟨.ok, BitVec.ofNat 8 bytes.length :: bytes⟩⟩] }) ∧
      (s.rdPend = true → s.respChan = .client → exec (.rxChunk bytes) s =
        .next { s with rdPend := false, rdTmr := 0, respChan := .idle,
                       resp := s.resp ++ [⟨0x20, ⟨.ok, BitVec.ofNat 8 bytes.length :: bytes⟩⟩],
                       client := { s.client with
                         inbox := some ⟨.ok, BitVec.ofNat 8 bytes.length :: bytes⟩ } }) ∧
      (s.rdPend = false → s.q.length < s.cfg.qCap →
        exec (.rxChunk bytes) s = .next { s with q := s.q ++ [bytes] }) ∧
      (s.rdPend = false → s.q.length = s.cfg.qCap →
        exec (.rxChunk bytes) s = .next { s with q := s.q.drop 1 ++ [bytes] }))

/-- Q.READ (R186): held at the port while a read is pending; else DEAD when dead; else the oldest item; else NONE
for a zero timeout; else the read pends. -/
def Obligations.QReadServesOrPends : Prop :=
  ∀ (hi lo : Byte) (s : State),
    encode (.qRead hi lo) = [0x20, hi, lo] ∧
    (s.rdPend = true → exec (.qRead hi lo) s = .next { s with port := [0x20, hi, lo] ++ s.port }) ∧
    (s.rdPend = false → s.dead = true → exec (.qRead hi lo) s =
      .next { s with resp := s.resp ++ [⟨0x20, ⟨.dead, []⟩⟩] }) ∧
    (∀ (item : List Byte) (rest : List (List Byte)), s.rdPend = false → s.dead = false → s.q = item :: rest →
      exec (.qRead hi lo) s = .next { s with
        q := rest,
        resp := s.resp ++ [⟨0x20, ⟨.ok, BitVec.ofNat 8 item.length :: item⟩⟩] }) ∧
    (s.rdPend = false → s.dead = false → s.q = [] → 256 * hi.toNat + lo.toNat = 0 →
      exec (.qRead hi lo) s = .next { s with resp := s.resp ++ [⟨0x20, ⟨.none, []⟩⟩] }) ∧
    (s.rdPend = false → s.dead = false → s.q = [] → 256 * hi.toNat + lo.toNat ≠ 0 →
      exec (.qRead hi lo) s = .next { s with
        rdPend := true,
        rdTmr := BitVec.ofNat 16 (256 * hi.toNat + lo.toNat), respChan := .commandPort })

/-- A second Q.READ waits at the command port while one is pending, and every byte behind it waits with it: the
port's turn changes nothing but the schedule (R186, R308). -/
def Obligations.SecondReadIsHeldAtThePort : Prop :=
  ∀ (s : State) (ts : List Turn) (hi lo : Byte) (behind : List Byte), s.rdPend = true →
    s.port = [0x20, hi, lo] ++ behind → s.sched = .port :: ts → step s = .next { s with sched := ts }

/-- TICK (R189): with a pending read the timer counts down and on reaching 0 completes the read with NONE; without
one nothing changes. The timer is never 0 while a read pends. -/
def Obligations.TickCountsDownThePendingRead : Prop :=
  encode .tick = [0x3F] ∧
  (∀ s : State, s.rdPend = false → exec .tick s = .next s) ∧
  (∀ s : State, s.rdPend = true → 2 ≤ s.rdTmr.toNat →
    exec .tick s = .next { s with rdTmr := s.rdTmr - 1 }) ∧
  (∀ s : State, s.rdPend = true → s.rdTmr.toNat = 1 → s.respChan = .commandPort → exec .tick s =
    .next { s with rdPend := false, rdTmr := 0, respChan := .idle,
                   resp := s.resp ++ [⟨0x20, ⟨.none, []⟩⟩] }) ∧
  (∀ s : State, s.rdPend = true → s.rdTmr.toNat = 1 → s.respChan = .client → exec .tick s =
    .next { s with rdPend := false, rdTmr := 0, respChan := .idle, resp := s.resp ++ [⟨0x20, ⟨.none, []⟩⟩],
                   client := { s.client with inbox := some ⟨.none, []⟩ } }) ∧
  (∀ s : State, StateInv s → s.rdPend = true → 1 ≤ s.rdTmr.toNat)

/-- The timeout bound (R190): a Q.READ with timeout T ≥ 1 on an empty queue is answered NONE by the T-th tick after
its acceptance and by no earlier one. First with no other step between the ticks; then with any steps of any agents
between them (`PendsFor`; a DEC.FEED that pushes nothing among them): as long as the read pends, fewer than T ticks
have come and RD_TMR holds what is left of T, and the T-th tick answers it. What ends the wait before that is a push, a
CLOSE or an IO.ERR only: after any other instruction, but for the T-th tick, the read still pends. -/
def Obligations.ReadTimesOutAtTheLastTick : Prop :=
  ∀ (hi lo : Byte) (s : State) (T : Nat), T = 256 * hi.toNat + lo.toNat → 1 ≤ T → s.rdPend = false →
    s.dead = false → s.q = [] → ∃ t, exec (.qRead hi lo) s = .next t ∧
    (∀ k, k < T → ticks k t = .next { t with rdTmr := BitVec.ofNat 16 (T - k) }) ∧
    ticks T t = .next { t with rdPend := false, rdTmr := 0, respChan := .idle,
                               resp := s.resp ++ [⟨0x20, ⟨.none, []⟩⟩] } ∧
    ∀ (k : Nat) (u : State), PendsFor t k u →
      k < T ∧ u.rdPend = true ∧ u.rdTmr = BitVec.ofNat 16 (T - k) ∧ u.respChan = .commandPort ∧
      (k + 1 = T → exec .tick u = .next { u with rdPend := false, rdTmr := 0, respChan := .idle,
                                                 resp := u.resp ++ [⟨0x20, ⟨.none, []⟩⟩] }) ∧
      (∀ i : Instr, ¬ IsPush i → ¬ IsTerminal i → (i = .tick → k + 1 < T) →
        ∃ v, exec i u = .next v ∧ v.rdPend = true)

/-- FLUSH (R191, R192, R296): ILL for a reserved bit of `fl`, else DEAD when dead, else the queue and the decoder are
emptied, the ids whose bit is set are written, and everything else, a pending read among it, stays. The clause about
`expSet`, by which only a FLUSH with both bits is what DEC.FEED needs and two FLUSHes of one bit each are not, is the
model's reading of R26, R296, D27 and U10 together with R297 and R150 (log 2). -/
def Obligations.FlushEmptiesAndRepoints : Prop :=
  ∀ (fl frm dst : Byte) (s : State),
    encode (.flush fl frm dst) = [0x21, fl, frm, dst] ∧
    (4 ≤ fl.toNat → exec (.flush fl frm dst) s = .next { s with resp := s.resp ++ [⟨0x21, ⟨.ill, []⟩⟩] }) ∧
    (fl.toNat < 4 → s.dead = true → exec (.flush fl frm dst) s =
      .next { s with resp := s.resp ++ [⟨0x21, ⟨.dead, []⟩⟩] }) ∧
    (fl.toNat < 4 → s.dead = false → exec (.flush fl frm dst) s =
      .next { s with q := [], rxn := 0, dstate := .awaitFrom,
                     expFrom := if fl.toNat % 2 = 1 then frm else s.expFrom,
                     expTo := if 2 ≤ fl.toNat then dst else s.expTo,
                     expSet := decide (fl.toNat = 3) || s.expSet,
                     resp := s.resp ++ [⟨0x21, ⟨.ok, []⟩⟩] })

/-- Only FLUSH, and the three host procedures whose first command is a FLUSH, write the expectations (R32, R33,
R192 (d)); a turn of the host procedure in progress does so only when the command it issues is a FLUSH. -/
def Obligations.OnlyFlushWritesTheExpectations : Prop :=
  (∀ (i : Instr) (s t : State), ¬ IsFlush i → exec i s = .next t →
    t.expFrom = s.expFrom ∧ t.expTo = s.expTo ∧ t.expSet = s.expSet) ∧
  (∀ s : State, (∀ ctx target aux, s.client.proc ≠ some ⟨ctx, .connectFlush target aux⟩) →
    (clientTurn s).expFrom = s.expFrom ∧ (clientTurn s).expTo = s.expTo ∧ (clientTurn s).expSet = s.expSet)

/-- TX.WRITE (R193): DEAD when dead, with nothing emitted; else its bytes go out in order as one run and nothing
else but the response port changes. -/
def Obligations.TxWriteEmitsItsBytes : Prop :=
  ∀ (bytes : List Byte) (s : State),
    encode (.txWrite bytes) = 0x22 :: BitVec.ofNat 8 bytes.length :: bytes ∧
    (s.dead = true → exec (.txWrite bytes) s =
      .next { s with resp := s.resp ++ [⟨0x22, ⟨.dead, []⟩⟩] }) ∧
    (s.dead = false → exec (.txWrite bytes) s =
      .next { s with tx := s.tx ++ bytes, resp := s.resp ++ [⟨0x22, ⟨.ok, []⟩⟩] })

/-- CLOSE (R195): the terminal entry of R264; a pending read, whoever issued it, is answered DEAD first, then
the CLOSE is answered OK. A second CLOSE changes nothing but its own answer. -/
def Obligations.CloseSetsTheTerminalFlag : Prop :=
  encode .close = [0x23] ∧
  (∀ s : State, s.rdPend = false → exec .close s =
    .next { s with dead := true, q := [], rxn := 0, dstate := .awaitFrom,
                   resp := s.resp ++ [⟨0x23, ⟨.ok, []⟩⟩] }) ∧
  (∀ s : State, s.rdPend = true → s.respChan = .commandPort → exec .close s =
    .next { s with dead := true, q := [], rxn := 0, dstate := .awaitFrom, rdPend := false, rdTmr := 0,
                   respChan := .idle,
                   resp := s.resp ++ [⟨0x20, ⟨.dead, []⟩⟩, ⟨0x23, ⟨.ok, []⟩⟩] }) ∧
  (∀ s : State, s.rdPend = true → s.respChan = .client → exec .close s =
    .next { s with dead := true, q := [], rxn := 0, dstate := .awaitFrom, rdPend := false, rdTmr := 0,
                   respChan := .idle,
                   resp := s.resp ++ [⟨0x20, ⟨.dead, []⟩⟩, ⟨0x23, ⟨.ok, []⟩⟩],
                   client := { s.client with inbox := some ⟨.dead, []⟩ } }) ∧
  (∀ s t : State, exec .close s = .next t → exec .close t =
    .next { t with resp := t.resp ++ [⟨0x23, ⟨.ok, []⟩⟩] })

/-- IO.ERR (R196): the same state change with no response of its own, in every state; after the first it changes
nothing. A pending read, whoever issued it, is completed with DEAD. -/
def Obligations.IoErrSetsTheTerminalFlag : Prop :=
  encode .ioErr = [0x32] ∧
  (∀ s : State, s.rdPend = false → exec .ioErr s =
    .next { s with dead := true, q := [], rxn := 0, dstate := .awaitFrom }) ∧
  (∀ s : State, s.rdPend = true → s.respChan = .commandPort → exec .ioErr s =
    .next { s with dead := true, q := [], rxn := 0, dstate := .awaitFrom, rdPend := false, rdTmr := 0,
                   respChan := .idle, resp := s.resp ++ [⟨0x20, ⟨.dead, []⟩⟩] }) ∧
  (∀ s : State, s.rdPend = true → s.respChan = .client → exec .ioErr s =
    .next { s with dead := true, q := [], rxn := 0, dstate := .awaitFrom, rdPend := false, rdTmr := 0,
                   respChan := .idle, resp := s.resp ++ [⟨0x20, ⟨.dead, []⟩⟩],
                   client := { s.client with inbox := some ⟨.dead, []⟩ } }) ∧
  (∀ s t : State, exec .ioErr s = .next t → exec .ioErr t = .next t)

/-- IS.ERR (R197): it answers the value of DEAD and has no side effect; after a CLOSE it answers 1. -/
def Obligations.IsErrReadsTheTerminalFlag : Prop :=
  encode .isErr = [0x24] ∧
  (∀ s : State, exec .isErr s = .next { s with
    resp := s.resp ++ [⟨0x24, ⟨.ok, [if s.dead = true then 0x01 else 0x00]⟩⟩] }) ∧
  (∀ s t : State, exec .close s = .next t → exec .isErr t =
    .next { t with resp := t.resp ++ [⟨0x24, ⟨.ok, [0x01]⟩⟩] })

/-- The terminal flag is sticky (R30, R265): no step clears it but the one that takes the reset input, and no step of
any agent, a turn of the host procedure in progress among them, emits a byte or leaves an item in the queue or a read
pending while it is set. -/
def Obligations.DeadIsClearedByResetOnly : Prop :=
  (∀ s t : State, s.dead = true → step s = .next t →
    t.dead = true ∨ ∃ d more, s.inp = .reset d :: more ∧ t.inp = more ∧ t.decAttached = d) ∧
  (∀ s t : State, StateInv s → s.dead = true → step s = .next t →
    t.tx = s.tx ∧ t.q = [] ∧ t.rdPend = false)

/-- First in, first out (R198, R61): an instruction removes items only from the head of the queue and adds at most
one, at the tail; a turn of the host procedure in progress removes in the same way and adds none. -/
def Obligations.QueueIsFirstInFirstOut : Prop :=
  (∀ (i : Instr) (s t : State), exec i s = .next t →
    ∃ (k : Nat) (new : List (List Byte)), t.q = s.q.drop k ++ new ∧ new.length ≤ 1) ∧
  (∀ s : State, ∃ k : Nat, (clientTurn s).q = s.q.drop k)

/-- What has been answered and what has been emitted is never taken back or reordered (R61 (d), R84): every step
only appends to the response port's and the TX port's output. -/
def Obligations.OutputsAreAppendOnly : Prop :=
  ∀ s t : State, step s = .next t → s.resp <+: t.resp ∧ s.tx <+: t.tx

/-- Steps that fall in one clock cycle are performed one after the other, each once: terminal, FLUSH, push, another host
command, TICK, the pushes in wire order. R262 gives this order for CLOSE, IO.ERR, FLUSH, a q_push, a host command and
TICK. The model's choice is that the whole DEC.FEED stands in the place of the q_push, after a FLUSH of its cycle, so
that a byte ending a frame held from earlier cycles then pushes nothing (log 31), and that a call stands in the place of
its first command (log 6). With nothing waiting on the port a cycle of RX events, ticks and at most one host command or
call is those steps in that order, a chunk of the decoder path being the feeds of its bytes (that all of them fall in
the one cycle is the model's choice: log 6). An RX event waits for the chunk in delivery, and a
command for the Q.READ held at the port (R61, R308). -/
def Obligations.CycleOrderFollowsTheRanks : Prop :=
  (∀ is : List Instr, (cycleOrder is).Perm is ∧
    (∀ (front back : List Instr) (i : Instr), cycleOrder is = front ++ i :: back →
      (IsTerminal i → ∀ j ∈ front, IsTerminal j) ∧
      (IsFlush i → ∀ j ∈ front, IsTerminal j ∨ IsFlush j) ∧
      (IsPush i → ∀ j ∈ front, IsTerminal j ∨ IsFlush j ∨ IsPush j) ∧
      (i ≠ .tick → .tick ∉ front)) ∧
    (∀ isPush : Instr → Bool, (∀ i, isPush i = true ↔ IsPush i) →
      (cycleOrder is).filter isPush = is.filter isPush)) ∧
  (∀ (s : State) (ts : List Turn) (is events host : List Instr) (more : List Stim), s.sched = .input :: ts →
    s.inp = .cycle is :: more → s.port = [] → s.rxRest = [] →
    events = (is.filter fun i => i.port = .rx ∨ i.port = .tick).flatMap (fun i =>
      match i with
      | .rxChunk bytes => if s.decAttached then bytes.map .decFeed else [.rxChunk bytes]
      | _ => [i]) →
    host = (is.filter fun i => i.port = .command ∨ i.port = .call) → host.length ≤ 1 →
    (∀ i ∈ host, i.WellFormed) →
    step s = runInstrs (cycleOrder (events ++ host)) { s with sched := ts, inp := more }) ∧
  (∀ (s : State) (ts : List Turn) (is : List Instr) (more : List Stim) (b : Byte) (bs : List Byte),
    s.sched = .input :: ts → s.inp = .cycle is :: more → s.rxRest = b :: bs → (∃ i ∈ is, i.port = .rx) →
    step s = exec (.decFeed b) { s with sched := ts, rxRest := bs }) ∧
  (∀ (s : State) (ts : List Turn) (c : Instr) (more : List Stim) (hi lo : Byte) (behind : List Byte),
    s.sched = .input :: ts → s.inp = .cycle [c] :: more → c.port = .command → s.rdPend = true →
    s.port = [0x20, hi, lo] ++ behind →
    step s = .next { s with sched := ts, inp := more, port := s.port ++ encode c })

/-! ## The configuration and reset -/

/-- The parameters are never written, and DEC_ATTACHED is written by the reset input only (R6, R36). -/
def Obligations.ConfigurationIsFixed : Prop :=
  (∀ s t : State, step s = .next t → t.cfg = s.cfg) ∧
  (∀ s t : State, step s = .next t →
    t.decAttached = s.decAttached ∨ ∃ more, s.inp = .reset t.decAttached :: more ∧ t.inp = more)

/-- Reset (R290 to R292): every element takes its value of R291, in `State.reset` and, applied to a running
machine, with no response and no byte sent. What EXP_FROM, EXP_TO and RXBUF then hold, and what becomes of the
host's procedure, is the model's choice and not stated here (log 2, log 3, log 14). The clause `t.port = []` is R291's
idle parser and R292's discarded partial command; that whole commands waiting unaccepted on the port (a held Q.READ
and those behind it) are dropped too is the model's choice (log 14). -/
def Obligations.ResetHoldsTheStatedValues : Prop :=
  (State.reset.crc = 0xFFFF ∧ State.reset.rxn = 0 ∧ State.reset.drem = 0 ∧
    State.reset.dstate = .awaitFrom ∧ State.reset.dead = false ∧ State.reset.rdPend = false ∧
    State.reset.rdTmr = 0 ∧ State.reset.q = [] ∧ State.reset.port = []) ∧
  ∀ (s : State) (ts : List Turn) (d : Bool) (more : List Stim), s.sched = .input :: ts →
    s.inp = .reset d :: more → ∃ t, step s = .next t ∧
      t.crc = s.cfg.crcInit ∧ t.rxn = 0 ∧ t.drem = 0 ∧ t.dstate = .awaitFrom ∧ t.dead = false ∧
      t.rdPend = false ∧ t.rdTmr = 0 ∧ t.q = [] ∧ t.decAttached = d ∧ t.port = [] ∧ t.respChan = .idle ∧
      t.expSet = false ∧ t.resp = s.resp ∧ t.tx = s.tx ∧ t.inp = more ∧
      t.cfg = s.cfg

/-! ## Invariants -/

/-- The invariants of R23, R24, R34, R39, R40, R160 and R224 hold at reset. -/
def Obligations.InvAtReset : Prop := StateInv State.reset

/-- Every step, of whichever agent, keeps them, from every state that has them. -/
def Obligations.StepKeepsInv : Prop := ∀ s t : State, StateInv s → step s = .next t → StateInv t

/-- No step of a state that has them faults: every buffer index a rule uses is in range (R53, R160). -/
def Obligations.InvStepNeverFaults : Prop := ∀ (s : State) (r : Fault), StateInv s → step s ≠ .fault r

/-- With a decoder attached, every queued item unpacks to a frame under the expectations that stand (R165). -/
def Obligations.QueuedItemsUnpack : Prop :=
  ∀ (s : State) (item : List Byte), StateInv s → s.decAttached = true → s.cfg.decLenCap ≤ 126 → item ∈ s.q →
    ∃ f, unpackRs s.cfg item s.expFrom s.expTo = .ok f

/-! ## The host procedures -/

/-- The lock (R224, R236). A call of any of the five procedures waits, and changes nothing else, while a procedure is
in progress, or while the lock spans a SEND whose PEND has not run, unless the call is that PEND, by the SEND's caller:
so at most one request is outstanding. That a further SEND, GET_RANGE, CONNECT_DEVICE or CONNECT_TO of the same caller
waits too is the model's reading, for R224 does not name the case (DEDUCED: log 30). A waiting caller that may begin
takes the lock at its turn and its procedure runs; one that may not goes on waiting: that callers are told apart by
number, and that any of those who may begin may be the next, is the model's reading too (DEDUCED: log 12). -/
def Obligations.CallWaitsForTheLock : Prop :=
  (∀ (i : Instr) (s : State), i.port = .call →
    s.client.proc ≠ none ∨ (s.client.lock = true ∧ (s.client.pair = false ∨
      s.client.holder ≠ s.client.caller ∨ ∀ rw d timeout, i ≠ .pend rw d timeout)) →
    exec i s = .next { s with client := { s.client with
      waiting := s.client.waiting ++ [(s.client.caller, i)] } }) ∧
  (∀ (s : State) (ts : List Turn) (k c : Nat) (i : Instr), s.sched = .caller k :: ts →
    s.client.waiting[k]? = some (c, i) → i.port = .call → s.client.proc = none →
    (s.client.lock = true → s.client.pair = true ∧ s.client.holder = c ∧
      ∃ rw d timeout, i = .pend rw d timeout) →
    ∃ t, exec i { s with sched := ts,
                         client := { s.client with caller := c, waiting := s.client.waiting.eraseIdx k } } = .next t ∧
      t.client.holder = c ∧ t.client.waiting = s.client.waiting.eraseIdx k ∧
      step s = .next { t with client := { t.client with caller := s.client.caller } }) ∧
  (∀ (s : State) (ts : List Turn) (k c : Nat) (i : Instr), s.sched = .caller k :: ts →
    s.client.waiting[k]? = some (c, i) →
    s.client.proc ≠ none ∨ (s.client.lock = true ∧ (s.client.pair = false ∨ s.client.holder ≠ c ∨
      ∀ rw d timeout, i ≠ .pend rw d timeout)) →
    step s = .next { s with sched := ts })

/-- CONNECT_TO (R223): it repoints the template and issues FLUSH with both ids; its result is OK, or DEAD on a dead
block. It takes the free lock and leaves it free (R224). -/
def Obligations.ConnectToRepointsAndFlushes : Prop :=
  ∀ (target : Byte) (aux : Nat) (s : State), s.client.proc = none →
    s.client.lock = false → s.port = [] →
    (s.dead = false → exec (.connectTo target aux) s =
      .next { s with q := [], rxn := 0, dstate := .awaitFrom, expFrom := target, expTo := s.cfg.hostId,
                     expSet := true, resp := s.resp ++ [⟨0x21, ⟨.ok, []⟩⟩],
                     client := { s.client with
                       targetId := target, auxId := aux, holder := s.client.caller,
                       lock := false, pair := false, proc := none,
                       results := s.client.results ++ [.status 0x40 .ok none] } }) ∧
    (s.dead = true → exec (.connectTo target aux) s =
      .next { s with resp := s.resp ++ [⟨0x21, ⟨.dead, []⟩⟩],
                     client := { s.client with
                       targetId := target, auxId := aux, holder := s.client.caller,
                       lock := false, pair := false, proc := none,
                       results := s.client.results ++ [.status 0x40 .dead none] } })

/-- SEND (R225): IS.ERR, PACK and TX.WRITE write exactly one whole frame of the template's form and addressing,
and the result is OK. It takes the free lock, which stays with the caller for the PEND (R224). Bytes that wait on the
command port would be accepted first (R308, log 24): the statement is of an empty port. -/
def Obligations.SendWritesOneFrame : Prop :=
  ∀ (rw : Bool) (d : Descriptor) (payload frame : List Byte) (code : Byte) (len : Nat) (s : State),
    s.client.proc = none → s.client.lock = false → s.port = [] →
    s.dead = false → requestLength d rw payload = some len →
    (s.client.form = .rs ∧ len ≤ 125 ∧ code = 0x10 ∧ frame = packRs s.cfg
        ⟨s.cfg.hostId, s.client.targetId, s.client.tstate, rw, d.cmd, payload.take len⟩ ∨
      s.client.form = .can ∧ len ≤ 7 ∧ code = 0x11 ∧ s.client.targetId.toNat < 128 ∧ frame = packCan s.cfg
        ⟨BitVec.ofNat 7 s.client.targetId.toNat, s.client.tstate, rw, d.cmd, payload.take len⟩) →
    ∃ t, exec (.send rw d payload) s = .next t ∧ clientTurns 2 t =
      { s with resp := s.resp ++ [⟨0x24, ⟨.ok, [0x00]⟩⟩,
                 ⟨code, ⟨.ok, BitVec.ofNat 8 frame.length :: frame⟩⟩, ⟨0x22, ⟨.ok, []⟩⟩],
               tx := s.tx ++ frame,
               client := { s.client with
                 holder := s.client.caller, lock := true, pair := true, proc := none,
                 results := s.client.results ++ [.status 0x41 .ok none] } }

/-- SEND fails soft (R222, R225): on a dead block it returns DEAD after IS.ERR, or after the TX.WRITE when the block
dies in between; a payload that does not fit a fixed length, or is over the variant's limit, returns LEN; in all these
cases nothing is written. That the lock is then free again, no request being outstanding, is the model's reading
(DEDUCED: log 12), and so is that a CAN-form target id that is no 7-bit value is ILL (DEDUCED: log 28). -/
def Obligations.SendFailsSoft : Prop :=
  (∀ (rw : Bool) (d : Descriptor) (payload : List Byte) (s : State) (returned : Status → List Response → State),
    s.client.proc = none → s.client.lock = false → s.port = [] →
    (∀ st rs, returned st rs =
      { s with resp := s.resp ++ rs,
               client := { s.client with
                 holder := s.client.caller, lock := false, pair := false, proc := none,
                 results := s.client.results ++ [.status 0x41 st none] } }) →
    (s.dead = true → exec (.send rw d payload) s = .next (returned .dead [⟨0x24, ⟨.ok, [0x01]⟩⟩])) ∧
    (∀ n, s.dead = false → (if rw = true then d.writeReqLen else d.readReqLen) = .fixed n →
      payload.length ≠ n → exec (.send rw d payload) s = .next (returned .len [⟨0x24, ⟨.ok, [0x00]⟩⟩])) ∧
    (∀ (len : Nat) (code : Byte) (st : Status), s.dead = false → requestLength d rw payload = some len →
      (s.client.form = .rs ∧ 125 < len ∧ code = 0x10 ∧ st = .len ∨
        s.client.form = .can ∧ s.client.targetId.toNat < 128 ∧ 7 < len ∧ code = 0x11 ∧ st = .len ∨
        s.client.form = .can ∧ 128 ≤ s.client.targetId.toNat ∧ code = 0x11 ∧ st = .ill) →
      ∃ t, exec (.send rw d payload) s = .next t ∧
        clientTurns 1 t = returned st [⟨0x24, ⟨.ok, [0x00]⟩⟩, ⟨code, ⟨st, []⟩⟩])) ∧
  (∀ (frame : List Byte) (s : State), s.client.proc = some ⟨.top 0x41, .sendWrite frame⟩ → s.port = [] →
    s.dead = true → clientTurn s =
      { s with resp := s.resp ++ [⟨0x22, ⟨.dead, []⟩⟩],
               client := { s.client with
                 lock := false, pair := false, proc := none,
                 results := s.client.results ++ [.status 0x41 .dead none] } })

/-- PEND with an item in the queue, in either form (R227): exactly that item is dequeued and unpacked; a codec status
is returned as it is, else RW, CMD, STATE are tested in that order, and the frame is returned with each. That a CAN-form
target id that is no 7-bit value makes the codec's status ILL is the model's reading (DEDUCED: log 28). The pair
ends and the lock is free (R224). An item that is pushed while the read of PEND pends, after any number of ticks below
the timeout, is taken in the same way; a raw RX.CHUNK is such a push, and `DecFeedTransitions` says when a DEC.FEED
makes one. Whatever runs between the commands of PEND, the turn that ends it returns its status and frame. -/
def Obligations.PendChecksOneItem : Prop :=
  (∀ (rw : Bool) (d : Descriptor) (timeout : Option Word) (item : List Byte) (rest : List (List Byte)) (s : State)
    (st : Status) (frame : Option Frame),
    s.client.proc = none → (s.client.lock = true → s.client.pair = true ∧ s.client.holder = s.client.caller) →
    s.port = [] → s.dead = false → s.rdPend = false → s.q = item :: rest → ItemResult s rw d item st frame →
    ∃ t, exec (.pend rw d timeout) s = .next t ∧ clientTurns 1 t =
      { s with q := rest,
               resp := s.resp ++ [⟨0x20, ⟨.ok, BitVec.ofNat 8 item.length :: item⟩⟩, itemResponse s item],
               client := { s.client with
                 holder := s.client.caller, lock := false, pair := false, proc := none,
                 results := s.client.results ++ [.status 0x42 st frame] } }) ∧
  (∀ (rw : Bool) (d : Descriptor) (timeout : Option Word) (T : Word) (item : List Byte) (k : Nat) (s : State)
      (st : Status) (frame : Option Frame), T = timeout.getD s.cfg.tDefault →
    s.client.proc = none → (s.client.lock = true → s.client.pair = true ∧ s.client.holder = s.client.caller) →
    s.port = [] → s.dead = false → s.rdPend = false → s.q = [] → k < T.toNat → ItemResult s rw d item st frame →
    ∃ t u, exec (.pend rw d timeout) s = .next t ∧ ticks k t = .next u ∧
      (u.decAttached = false → item ≠ [] → item.length ≤ u.cfg.itemMax →
        exec (.rxChunk item) u = .next (qPush item u)) ∧
      clientTurns 2 (qPush item u) =
        { s with rdTmr := 0, respChan := .idle,
                 resp := s.resp ++ [⟨0x20, ⟨.ok, BitVec.ofNat 8 item.length :: item⟩⟩, itemResponse s item],
                 client := { s.client with
                   holder := s.client.caller, lock := false, pair := false, proc := none, inbox := none,
                   results := s.client.results ++ [.status 0x42 st frame] } }) ∧
  (∀ (s : State) (stage : Stage) (st : Status) (frame : Option Frame),
    s.client.proc = some ⟨.top 0x42, stage⟩ → PendEnds s stage st frame →
    (clientTurn s).client.proc = none ∧ (clientTurn s).client.lock = false ∧
      (clientTurn s).client.pair = false ∧
      (clientTurn s).client.results = s.client.results ++ [.status 0x42 st frame])

/-- PEND with no item (R227): DEAD on a dead block; TIMEOUT at once for a zero timeout; otherwise the read pends
for the given timeout, or for T_DEFAULT when it is omitted. An IO.ERR or a CLOSE while the read pends, before the
timeout and after any number of ticks, ends the PEND with DEAD (R195, R196, R227). -/
def Obligations.PendWithoutAnItem : Prop :=
  (∀ (rw : Bool) (d : Descriptor) (timeout : Option Word) (s : State), s.client.proc = none →
    (s.client.lock = true → s.client.pair = true ∧ s.client.holder = s.client.caller) →
    s.port = [] → s.rdPend = false →
    (s.dead = true → exec (.pend rw d timeout) s =
      .next { s with resp := s.resp ++ [⟨0x20, ⟨.dead, []⟩⟩],
                     client := { s.client with
                       holder := s.client.caller, lock := false, pair := false, proc := none,
                       results := s.client.results ++ [.status 0x42 .dead none] } }) ∧
    (s.dead = false → s.q = [] → timeout.getD s.cfg.tDefault = 0 → exec (.pend rw d timeout) s =
      .next { s with resp := s.resp ++ [⟨0x20, ⟨.none, []⟩⟩],
                     client := { s.client with
                       holder := s.client.caller, lock := false, pair := false, proc := none,
                       results := s.client.results ++ [.status 0x42 .timeout none] } }) ∧
    (s.dead = false → s.q = [] → timeout.getD s.cfg.tDefault ≠ 0 → exec (.pend rw d timeout) s =
      .next { s with rdPend := true, rdTmr := timeout.getD s.cfg.tDefault, respChan := .client,
                     client := { s.client with
                       holder := s.client.caller, lock := true,
                       proc := some ⟨.top 0x42, .pendWait rw d⟩ } })) ∧
  (∀ (rw : Bool) (d : Descriptor) (timeout : Option Word) (T : Word) (k : Nat) (s : State)
      (ended : List Response → State), T = timeout.getD s.cfg.tDefault →
    s.client.proc = none → (s.client.lock = true → s.client.pair = true ∧ s.client.holder = s.client.caller) →
    s.port = [] → s.dead = false → s.rdPend = false → s.q = [] → k < T.toNat →
    (∀ rs, ended rs =
      { s with dead := true, rxn := 0, dstate := .awaitFrom, rdTmr := 0, respChan := .idle,
               resp := s.resp ++ ⟨0x20, ⟨.dead, []⟩⟩ :: rs,
               client := { s.client with
                 holder := s.client.caller, lock := false, pair := false, proc := none, inbox := none,
                 results := s.client.results ++ [.status 0x42 .dead none] } }) →
    ∃ t u v w, exec (.pend rw d timeout) s = .next t ∧ ticks k t = .next u ∧
      exec .ioErr u = .next v ∧ clientTurns 1 v = ended [] ∧
      exec .close u = .next w ∧ clientTurns 1 w = ended [⟨0x23, ⟨.ok, []⟩⟩])

/-- PEND returns TIMEOUT at the T-th tick when nothing arrives, T being the given timeout or T_DEFAULT (R190, R227). First with no other step between the
ticks; then with any steps of any agents between them (`PendsFor`), as long as the read pends: that it then pends until the
T-th tick unless something is pushed or the block dies is the last clause. -/
def Obligations.PendTimesOut : Prop :=
  ∀ (rw : Bool) (d : Descriptor) (timeout : Option Word) (T : Word) (s : State),
    T = timeout.getD s.cfg.tDefault → s.client.proc = none →
    (s.client.lock = true → s.client.pair = true ∧ s.client.holder = s.client.caller) →
    s.port = [] → s.rdPend = false → s.dead = false → s.q = [] → T ≠ 0 →
    ∃ t u, exec (.pend rw d timeout) s = .next t ∧ ticks T.toNat t = .next u ∧ clientTurns 1 u =
      { s with rdTmr := 0, respChan := .idle, resp := s.resp ++ [⟨0x20, ⟨.none, []⟩⟩],
               client := { s.client with
                 holder := s.client.caller, lock := false, pair := false, proc := none, inbox := none,
                 results := s.client.results ++ [.status 0x42 .timeout none] } } ∧
    ∀ (k : Nat) (v : State), s.client.inbox = none → PendsFor t k v → k < T.toNat ∧
      (k + 1 = T.toNat → ∃ w, exec .tick v = .next w ∧ clientTurn w =
        { v with rdPend := false, rdTmr := 0, respChan := .idle, resp := v.resp ++ [⟨0x20, ⟨.none, []⟩⟩],
                 client := { v.client with
                   lock := false, pair := false, proc := none, inbox := none,
                   results := v.client.results ++ [.status 0x42 .timeout none] } }) ∧
      (∀ i : Instr, ¬ IsPush i → ¬ IsTerminal i → (i = .tick → k + 1 < T.toNat) →
        ∃ w, exec i v = .next w ∧ w.rdPend = true)

/-- GET_RANGE (R230): its first step saves the target and points the connection and the decoder at the wildcard;
the one SEND follows, for end_id - start_id + 1 slots. With start_id > end_id, which R230 requires not to be, it runs
too: that the number of slots is then a free value is the model's choice (log 15). -/
def Obligations.GetRangePointsAtTheWildcard : Prop :=
  ∀ (d : Descriptor) (startId endId wild : Byte) (count drawn : Nat) (s : State),
    (s.client.form = .rs ∧ wild = 0x55 ∨ s.client.form = .can ∧ wild.toNat = s.cfg.wildcardCan.toNat) →
    (startId.toNat ≤ endId.toNat ∧ count = endId.toNat - startId.toNat + 1 ∧ drawn = s.draws ∨
      endId.toNat < startId.toNat ∧ count = Config.freeSlots s.draws ∧ drawn = s.draws + 1) →
    s.client.proc = none → s.client.lock = false → s.port = [] →
    s.dead = false →
    exec (.getRange d startId endId) s =
      .next { s with q := [], rxn := 0, dstate := .awaitFrom, expFrom := wild, expTo := s.cfg.hostId,
                     expSet := true, draws := drawn, resp := s.resp ++ [⟨0x21, ⟨.ok, []⟩⟩],
                     client := { s.client with
                       targetId := wild, holder := s.client.caller, lock := true,
                       proc := some ⟨.rangeSend d s.client.targetId count, .sendQuery false d []⟩ } }

/-- GET_RANGE's slots (R230, R231). Whatever each command answers they stay as many as they were, and when it returns
it returns that many ("still returns a full N-length result"). The status and the payload of each PEND go into the next
slot, and the next PEND follows, or the CONNECT_TO back to the saved target when none is left. So of items that are in
the queue when the PENDs begin, slot k holds what PEND makes of the k-th. -/
def Obligations.GetRangeReturnsEverySlot : Prop :=
  (∀ (s : State) (p : Proc) (n : Nat), s.client.proc = some p → slotCount p.ctx = some n →
    (∀ d saved done, p.ctx ≠ .rangePend d saved 0 done) →
    (∀ p', (clientTurn s).client.proc = some p' →
      slotCount p'.ctx = some n ∧ (∀ d saved done, p'.ctx ≠ .rangePend d saved 0 done)) ∧
    ((clientTurn s).client.proc = none → ∃ slots, slots.length = n ∧
      (clientTurn s).client.results = s.client.results ++ [.range slots])) ∧
  (∀ (s : State) (d : Descriptor) (saved : Byte) (left : Nat) (done : List Slot) (stage : Stage) (st : Status)
      (frame : Option Frame), s.client.proc = some ⟨.rangePend d saved left done, stage⟩ →
    PendEnds s stage st frame →
    (2 ≤ left → (clientTurn s).client.proc =
      some ⟨.rangePend d saved (left - 1) (done ++ [⟨st, payloadOf frame⟩]), .pendRead false d s.cfg.tDefault⟩) ∧
    (left = 1 → (clientTurn s).client.proc =
      some ⟨.rangeClose (done ++ [⟨st, payloadOf frame⟩]), .connectFlush saved s.client.auxId⟩)) ∧
  (∀ (s : State) (done : List Slot) (saved : Byte) (aux : Nat),
    s.client.proc = some ⟨.rangeClose done, .connectFlush saved aux⟩ → s.port = [] →
    (clientTurn s).client.targetId = saved ∧ (clientTurn s).client.auxId = aux ∧
      (clientTurn s).client.proc = none ∧ (clientTurn s).client.lock = false ∧
      (clientTurn s).client.results = s.client.results ++ [.range done] ∧
      (s.dead = false → (clientTurn s).expFrom = saved ∧ (clientTurn s).expTo = s.cfg.hostId)) ∧
  (∀ (s : State) (d : Descriptor) (saved : Byte) (items rest : List (List Byte)),
    s.client.proc = some ⟨.rangePend d saved items.length [], .pendRead false d s.cfg.tDefault⟩ → s.port = [] →
    s.dead = false → s.rdPend = false → s.q = items ++ rest → items ≠ [] →
    ∃ slots, List.Forall₂ (fun item slot => ∃ frame, ItemResult s false d item slot.status frame ∧
        slot.payload = payloadOf frame) items slots ∧
      (clientTurns (2 * items.length + 1) s).client.results = s.client.results ++ [.range slots] ∧
      (clientTurns (2 * items.length + 1) s).client.targetId = saved ∧
      (clientTurns (2 * items.length + 1) s).client.proc = none)

/-- A GET_RANGE whose SEND fails (R230): every slot carries its status, and the saved target is put back. On a dead
block that status is DEAD; with a read_req_len that is fixed and not 0, which the empty payload does not fit, it is
LEN; and in general it is whatever status the SEND ends with, at any of its commands, the slots being as many as were
asked for. With start_id > end_id the number of slots is a free value, the model's choice (log 15). -/
def Obligations.GetRangeOnDeadBlock : Prop :=
  (∀ (d : Descriptor) (startId endId : Byte) (count drawn : Nat) (s : State),
    (startId.toNat ≤ endId.toNat ∧ count = endId.toNat - startId.toNat + 1 ∧ drawn = s.draws ∨
      endId.toNat < startId.toNat ∧ count = Config.freeSlots s.draws ∧ drawn = s.draws + 1) →
    s.client.proc = none → s.client.lock = false → s.port = [] →
    s.dead = true →
    ∃ t, exec (.getRange d startId endId) s = .next t ∧ clientTurns 2 t =
      { s with draws := drawn,
               resp := s.resp ++
                 [⟨0x21, ⟨.dead, []⟩⟩, ⟨0x24, ⟨.ok, [0x01]⟩⟩, ⟨0x21, ⟨.dead, []⟩⟩],
               client := { s.client with
                 holder := s.client.caller, lock := false, pair := false, proc := none,
                 results := s.client.results ++ [.range (List.replicate count ⟨.dead, []⟩)] } }) ∧
  (∀ (d : Descriptor) (startId endId : Byte) (n count drawn : Nat) (s : State),
    (startId.toNat ≤ endId.toNat ∧ count = endId.toNat - startId.toNat + 1 ∧ drawn = s.draws ∨
      endId.toNat < startId.toNat ∧ count = Config.freeSlots s.draws ∧ drawn = s.draws + 1) →
    s.client.proc = none → s.client.lock = false → s.port = [] → s.dead = false →
    d.readReqLen = .fixed n → n ≠ 0 →
    ∃ t, exec (.getRange d startId endId) s = .next t ∧ clientTurns 2 t =
      { s with q := [], rxn := 0, dstate := .awaitFrom, expFrom := s.client.targetId, expTo := s.cfg.hostId,
               expSet := true, draws := drawn,
               resp := s.resp ++
                 [⟨0x21, ⟨.ok, []⟩⟩, ⟨0x24, ⟨.ok, [0x00]⟩⟩, ⟨0x21, ⟨.ok, []⟩⟩],
               client := { s.client with
                 holder := s.client.caller, lock := false, pair := false, proc := none,
                 results := s.client.results ++ [.range (List.replicate count ⟨.len, []⟩)] } }) ∧
  (∀ (s : State) (d : Descriptor) (saved : Byte) (count : Nat) (stage : Stage) (st : Status),
    s.client.proc = some ⟨.rangeSend d saved count, stage⟩ → SendEnds s stage st → st ≠ .ok →
    (clientTurn s).tx = s.tx ∧ (clientTurn s).client.proc =
      some ⟨.rangeClose (List.replicate count ⟨st, []⟩), .connectFlush saved s.client.auxId⟩)

/-- CONNECT_DEVICE, in either form (R232): it points the connection at the wildcard and writes the handshake frame,
with the negotiation command and the wildcard id, then reads with the handshake's timeout, HS_TRIES attempts in all. -/
def Obligations.ConnectDeviceWritesTheHandshake : Prop :=
  ∀ (s : State) (code : Byte) (frame : List Byte), s.client.proc = none →
    s.client.lock = false → s.port = [] → s.dead = false →
    s.cfg.hsTries ≠ 0 →
    (s.client.form = .rs ∧ s.cfg.hsData.length ≤ 125 ∧ code = 0x10 ∧ frame = packRs s.cfg
        ⟨s.cfg.hostId, 0x55, s.client.tstate, s.cfg.hsRw, 0x7F, s.cfg.hsData⟩ ∨
      s.client.form = .can ∧ s.cfg.hsData.length ≤ 7 ∧ code = 0x11 ∧ frame = packCan s.cfg
        ⟨0x55, s.client.tstate, s.cfg.hsRw, 0x7F, s.cfg.hsData⟩) →
    ∃ t, exec .connectDevice s = .next t ∧ clientTurns 3 t =
      { s with q := [], rxn := 0, dstate := .awaitFrom, expFrom := 0x55, expTo := s.cfg.hostId, expSet := true,
               resp := s.resp ++ [⟨0x21, ⟨.ok, []⟩⟩, ⟨0x24, ⟨.ok, [0x00]⟩⟩,
                 ⟨code, ⟨.ok, BitVec.ofNat 8 frame.length :: frame⟩⟩, ⟨0x22, ⟨.ok, []⟩⟩],
               tx := s.tx ++ frame,
               client := { s.client with
                 targetId := 0x55, auxId := 0, holder := s.client.caller, lock := true,
                 proc := some ⟨.devicePend s.cfg.hsTries,
                   .pendRead s.cfg.hsRw (handshakeDesc s.cfg) s.cfg.hsTimeout⟩ } }

/-- The end of a handshake attempt (R232), at the turn that ends its PEND: OK or STATE succeed, DEAD returns DEAD, any
other status tries again while attempts are left and else returns CONNECT. An item that comes for a waiting PEND, in
whichever procedure, is unpacked. A SEND that ends with DEAD, at IS.ERR or at TX.WRITE, ends the handshake with DEAD;
one that ends with any other status, LEN of a handshake payload over the variant's limit among them, goes on to the
PEND. -/
def Obligations.HandshakeAttemptDecides : Prop :=
  (∀ (s : State) (left : Nat) (stage : Stage) (st : Status) (frame : Option Frame) (t : State),
    s.client.proc = some ⟨.devicePend left, stage⟩ → PendEnds s stage st frame → t = clientTurn s →
    ((st = .ok ∨ st = .state) → t.client.results = s.client.results ++ [.status 0x44 .ok none] ∧
      t.client.proc = none ∧ t.client.lock = false ∧ t.client.pair = false) ∧
    (st = .dead → t.client.results = s.client.results ++ [.status 0x44 .dead none] ∧
      t.client.proc = none ∧ t.client.lock = false ∧ t.client.pair = false) ∧
    (st ≠ .ok → st ≠ .state → st ≠ .dead → left ≤ 1 →
      t.client.results = s.client.results ++ [.status 0x44 .connect none] ∧
      t.client.proc = none ∧ t.client.lock = false ∧ t.client.pair = false) ∧
    (st ≠ .ok → st ≠ .state → st ≠ .dead → 2 ≤ left → t.client.results = s.client.results ∧
      t.client.lock = s.client.lock ∧ t.client.proc = some ⟨.deviceSend (left - 1),
        .sendQuery s.cfg.hsRw (handshakeDesc s.cfg) s.cfg.hsData⟩)) ∧
  (∀ (s : State) (ctx : Ctx) (rw : Bool) (d : Descriptor) (n : Byte) (item : List Byte),
    s.client.proc = some ⟨ctx, .pendWait rw d⟩ → s.client.inbox = some ⟨.ok, n :: item⟩ →
    clientTurn s = { s with client := { s.client with
      inbox := none, proc := some ⟨ctx, .pendUnpack rw d item⟩ } }) ∧
  (∀ (s : State) (left : Nat) (stage : Stage) (st : Status) (t : State),
    s.client.proc = some ⟨.deviceSend left, stage⟩ → SendEnds s stage st → t = clientTurn s →
    (st ≠ .ok → t.tx = s.tx) ∧
    (st = .dead → t.client.proc = none ∧ t.client.lock = false ∧ t.client.pair = false ∧
      t.client.results = s.client.results ++ [.status 0x44 .dead none]) ∧
    (st ≠ .dead → t.client.lock = s.client.lock ∧ t.client.results = s.client.results ∧
      t.client.proc = some ⟨.devicePend left,
        .pendRead s.cfg.hsRw (handshakeDesc s.cfg) s.cfg.hsTimeout⟩))
end

