-- ==== Sys2Proof/Laws/Checksum.lean ====
section
/-! SUPPORT. The checksum's pieces: sizes, and how each distributes over exclusive-or (spec/40_checksum.md R108). -/

namespace Sys2Proof.Machine

@[simp] theorem wireOrder_length (c : Config) (v : Word) : (wireOrder c v).length = 2 := by
  unfold wireOrder
  split <;> rfl

@[simp] theorem crcBytes_length (c : Config) (bytes : List Byte) : (crcBytes c bytes).length = 2 :=
  wireOrder_length ..

theorem crcFold_append (c : Config) (v : Word) (A B : List Byte) :
    crcFold c v (A ++ B) = crcFold c (crcFold c v A) B := List.foldl_append

theorem crcShift_xor (p a b : Word) : crcShift p (a ^^^ b) = crcShift p a ^^^ crcShift p b := by
  unfold crcShift
  rw [BitVec.getLsbD_xor, BitVec.ushiftRight_xor_distrib]
  cases a.getLsbD 0 <;> cases b.getLsbD 0 <;> simp <;> ac_nf
  simp

theorem crcShifts_xor (p a b : Word) (n : Nat) :
    crcShifts p n (a ^^^ b) = crcShifts p n a ^^^ crcShifts p n b := by
  induction n generalizing a b with
  | zero => rfl
  | succ n ih => simp [crcShifts, crcShift_xor, ih]

theorem crcUpd_xor (c : Config) (a b : Word) (x y : Byte) :
    crcUpd c (a ^^^ b) (x ^^^ y) = crcUpd c a x ^^^ crcUpd c b y := by
  simp only [crcUpd, ← crcShifts_xor, BitVec.setWidth_xor]
  congr 1
  ac_rfl

end Sys2Proof.Machine
end

