-- ==== Sys2Proof/Laws/Decode.lean ====
section
/-! SUPPORT. What the decoder's pieces answer: one lemma per piece that says everything it can do. -/

namespace Sys2Proof

@[simp] theorem takeByte_cons (b : Byte) (r : List Byte) (next : Byte → List Byte → Decoded) :
    takeByte (b :: r) next = next b r := rfl

@[simp] theorem takeByte_nil (next : Byte → List Byte → Decoded) : takeByte [] next = .incomplete := rfl

/-- A byte was there, and what follows from it answers. -/
theorem takeByte_eq_ok {bytes rest : List Byte} {next : Byte → List Byte → Decoded} {i : Instr}
    (h : takeByte bytes next = .ok i rest) : ∃ b r, bytes = b :: r ∧ next b r = .ok i rest := by
  cases bytes with
  | nil => cases h
  | cons b r => exact ⟨b, r, rfl, h⟩

/-- A payload that its count byte can count is taken whole. -/
theorem takePayload_countByte (payload rest : List Byte) (mk : List Byte → Instr)
    (h : payload.length ≤ 255) :
    takePayload (countByte payload :: (payload ++ rest)) mk = .ok (mk payload) rest := by
  have hn : (countByte payload).toNat = payload.length := by
    simp only [countByte, BitVec.toNat_ofNat]
    omega
  simp [takePayload, splitPayload, hn]

/-- What is taken as a payload is a count byte and as many bytes. -/
theorem takePayload_eq_ok {bytes rest : List Byte} {mk : List Byte → Instr} {i : Instr}
    (h : takePayload bytes mk = .ok i rest) : ∃ payload : List Byte, payload.length ≤ 255 ∧
      bytes = countByte payload :: (payload ++ rest) ∧ i = mk payload := by
  unfold takePayload at h
  obtain ⟨n, r, hb, hn⟩ := takeByte_eq_ok h
  clear h
  subst hb
  unfold splitPayload at hn
  by_cases hl : n.toNat ≤ r.length
  · rw [if_pos hl] at hn
    cases hn
    have := n.isLt
    refine ⟨_, ?_, ?_, rfl⟩
    · rw [List.length_take]
      omega
    · rw [countByte, List.length_take, Nat.min_eq_left hl]
      simp
  · rw [if_neg hl] at hn
    cases hn

/-- Opcodes of which the command port's table has no row (R92). -/
theorem decodeOperands_undefined {op : Byte} (r : List Byte)
    (h : ∀ n ∈ [0x01, 0x02, 0x03, 0x04, 0x10, 0x11, 0x12, 0x13, 0x20, 0x21, 0x22, 0x23, 0x24], op.toNat ≠ n) :
    decodeOperands op r = .undefinedCode op r := by
  unfold decodeOperands
  split <;> simp_all

end Sys2Proof
end

