-- ==== Sys2Proof/Laws/State.lean ====
section
/-! SUPPORT. What each shared state update does, field by field: one lemma per field per update, so that no proof
unfolds a record update. -/

namespace Sys2Proof.Machine

variable (s : State)

-- reply

@[simp] theorem reply_cfg (code : Byte) (r : Reply) : (reply code r s).cfg = s.cfg := rfl
@[simp] theorem reply_crc (code : Byte) (r : Reply) : (reply code r s).crc = s.crc := rfl
@[simp] theorem reply_rxbuf (code : Byte) (r : Reply) : (reply code r s).rxbuf = s.rxbuf := rfl
@[simp] theorem reply_rxn (code : Byte) (r : Reply) : (reply code r s).rxn = s.rxn := rfl
@[simp] theorem reply_drem (code : Byte) (r : Reply) : (reply code r s).drem = s.drem := rfl
@[simp] theorem reply_dstate (code : Byte) (r : Reply) : (reply code r s).dstate = s.dstate := rfl
@[simp] theorem reply_dead (code : Byte) (r : Reply) : (reply code r s).dead = s.dead := rfl
@[simp] theorem reply_rdPend (code : Byte) (r : Reply) : (reply code r s).rdPend = s.rdPend := rfl
@[simp] theorem reply_expFrom (code : Byte) (r : Reply) : (reply code r s).expFrom = s.expFrom := rfl
@[simp] theorem reply_expTo (code : Byte) (r : Reply) : (reply code r s).expTo = s.expTo := rfl
@[simp] theorem reply_expSet (code : Byte) (r : Reply) : (reply code r s).expSet = s.expSet := rfl
@[simp] theorem reply_rdTmr (code : Byte) (r : Reply) : (reply code r s).rdTmr = s.rdTmr := rfl
@[simp] theorem reply_decAttached (code : Byte) (r : Reply) : (reply code r s).decAttached = s.decAttached := rfl
@[simp] theorem reply_q (code : Byte) (r : Reply) : (reply code r s).q = s.q := rfl
@[simp] theorem reply_respChan (code : Byte) (r : Reply) : (reply code r s).respChan = s.respChan := rfl
@[simp] theorem reply_port (code : Byte) (r : Reply) : (reply code r s).port = s.port := rfl
@[simp] theorem reply_client (code : Byte) (r : Reply) : (reply code r s).client = s.client := rfl
@[simp] theorem reply_draws (code : Byte) (r : Reply) : (reply code r s).draws = s.draws := rfl
@[simp] theorem reply_rxRest (code : Byte) (r : Reply) : (reply code r s).rxRest = s.rxRest := rfl
@[simp] theorem reply_inp (code : Byte) (r : Reply) : (reply code r s).inp = s.inp := rfl
@[simp] theorem reply_sched (code : Byte) (r : Reply) : (reply code r s).sched = s.sched := rfl
@[simp] theorem reply_resp (code : Byte) (r : Reply) : (reply code r s).resp = s.resp ++ [⟨code, r⟩] := rfl
@[simp] theorem reply_tx (code : Byte) (r : Reply) : (reply code r s).tx = s.tx := rfl

-- armRead

@[simp] theorem armRead_cfg (who : RespChan) (t : Word) : (armRead who t s).cfg = s.cfg := rfl
@[simp] theorem armRead_crc (who : RespChan) (t : Word) : (armRead who t s).crc = s.crc := rfl
@[simp] theorem armRead_rxbuf (who : RespChan) (t : Word) : (armRead who t s).rxbuf = s.rxbuf := rfl
@[simp] theorem armRead_rxn (who : RespChan) (t : Word) : (armRead who t s).rxn = s.rxn := rfl
@[simp] theorem armRead_drem (who : RespChan) (t : Word) : (armRead who t s).drem = s.drem := rfl
@[simp] theorem armRead_dstate (who : RespChan) (t : Word) : (armRead who t s).dstate = s.dstate := rfl
@[simp] theorem armRead_dead (who : RespChan) (t : Word) : (armRead who t s).dead = s.dead := rfl
@[simp] theorem armRead_rdPend (who : RespChan) (t : Word) : (armRead who t s).rdPend = true := rfl
@[simp] theorem armRead_expFrom (who : RespChan) (t : Word) : (armRead who t s).expFrom = s.expFrom := rfl
@[simp] theorem armRead_expTo (who : RespChan) (t : Word) : (armRead who t s).expTo = s.expTo := rfl
@[simp] theorem armRead_expSet (who : RespChan) (t : Word) : (armRead who t s).expSet = s.expSet := rfl
@[simp] theorem armRead_rdTmr (who : RespChan) (t : Word) : (armRead who t s).rdTmr = t := rfl
@[simp] theorem armRead_decAttached (who : RespChan) (t : Word) : (armRead who t s).decAttached = s.decAttached := rfl
@[simp] theorem armRead_q (who : RespChan) (t : Word) : (armRead who t s).q = s.q := rfl
@[simp] theorem armRead_respChan (who : RespChan) (t : Word) : (armRead who t s).respChan = who := rfl
@[simp] theorem armRead_port (who : RespChan) (t : Word) : (armRead who t s).port = s.port := rfl
@[simp] theorem armRead_client (who : RespChan) (t : Word) : (armRead who t s).client = s.client := rfl
@[simp] theorem armRead_draws (who : RespChan) (t : Word) : (armRead who t s).draws = s.draws := rfl
@[simp] theorem armRead_rxRest (who : RespChan) (t : Word) : (armRead who t s).rxRest = s.rxRest := rfl
@[simp] theorem armRead_inp (who : RespChan) (t : Word) : (armRead who t s).inp = s.inp := rfl
@[simp] theorem armRead_sched (who : RespChan) (t : Word) : (armRead who t s).sched = s.sched := rfl
@[simp] theorem armRead_resp (who : RespChan) (t : Word) : (armRead who t s).resp = s.resp := rfl
@[simp] theorem armRead_tx (who : RespChan) (t : Word) : (armRead who t s).tx = s.tx := rfl

-- clearDecoder

@[simp] theorem clearDecoder_cfg  : (clearDecoder s).cfg = s.cfg := rfl
@[simp] theorem clearDecoder_crc  : (clearDecoder s).crc = s.crc := rfl
@[simp] theorem clearDecoder_rxbuf  : (clearDecoder s).rxbuf = s.rxbuf := rfl
@[simp] theorem clearDecoder_rxn  : (clearDecoder s).rxn = 0 := rfl
@[simp] theorem clearDecoder_drem  : (clearDecoder s).drem = s.drem := rfl
@[simp] theorem clearDecoder_dstate  : (clearDecoder s).dstate = .awaitFrom := rfl
@[simp] theorem clearDecoder_dead  : (clearDecoder s).dead = s.dead := rfl
@[simp] theorem clearDecoder_rdPend  : (clearDecoder s).rdPend = s.rdPend := rfl
@[simp] theorem clearDecoder_expFrom  : (clearDecoder s).expFrom = s.expFrom := rfl
@[simp] theorem clearDecoder_expTo  : (clearDecoder s).expTo = s.expTo := rfl
@[simp] theorem clearDecoder_expSet  : (clearDecoder s).expSet = s.expSet := rfl
@[simp] theorem clearDecoder_rdTmr  : (clearDecoder s).rdTmr = s.rdTmr := rfl
@[simp] theorem clearDecoder_decAttached  : (clearDecoder s).decAttached = s.decAttached := rfl
@[simp] theorem clearDecoder_q  : (clearDecoder s).q = s.q := rfl
@[simp] theorem clearDecoder_respChan  : (clearDecoder s).respChan = s.respChan := rfl
@[simp] theorem clearDecoder_port  : (clearDecoder s).port = s.port := rfl
@[simp] theorem clearDecoder_client  : (clearDecoder s).client = s.client := rfl
@[simp] theorem clearDecoder_draws  : (clearDecoder s).draws = s.draws := rfl
@[simp] theorem clearDecoder_rxRest  : (clearDecoder s).rxRest = s.rxRest := rfl
@[simp] theorem clearDecoder_inp  : (clearDecoder s).inp = s.inp := rfl
@[simp] theorem clearDecoder_sched  : (clearDecoder s).sched = s.sched := rfl
@[simp] theorem clearDecoder_resp  : (clearDecoder s).resp = s.resp := rfl
@[simp] theorem clearDecoder_tx  : (clearDecoder s).tx = s.tx := rfl

-- emit

@[simp] theorem emit_cfg (bytes : List Byte) : (emit bytes s).cfg = s.cfg := rfl
@[simp] theorem emit_crc (bytes : List Byte) : (emit bytes s).crc = s.crc := rfl
@[simp] theorem emit_rxbuf (bytes : List Byte) : (emit bytes s).rxbuf = s.rxbuf := rfl
@[simp] theorem emit_rxn (bytes : List Byte) : (emit bytes s).rxn = s.rxn := rfl
@[simp] theorem emit_drem (bytes : List Byte) : (emit bytes s).drem = s.drem := rfl
@[simp] theorem emit_dstate (bytes : List Byte) : (emit bytes s).dstate = s.dstate := rfl
@[simp] theorem emit_dead (bytes : List Byte) : (emit bytes s).dead = s.dead := rfl
@[simp] theorem emit_rdPend (bytes : List Byte) : (emit bytes s).rdPend = s.rdPend := rfl
@[simp] theorem emit_expFrom (bytes : List Byte) : (emit bytes s).expFrom = s.expFrom := rfl
@[simp] theorem emit_expTo (bytes : List Byte) : (emit bytes s).expTo = s.expTo := rfl
@[simp] theorem emit_expSet (bytes : List Byte) : (emit bytes s).expSet = s.expSet := rfl
@[simp] theorem emit_rdTmr (bytes : List Byte) : (emit bytes s).rdTmr = s.rdTmr := rfl
@[simp] theorem emit_decAttached (bytes : List Byte) : (emit bytes s).decAttached = s.decAttached := rfl
@[simp] theorem emit_q (bytes : List Byte) : (emit bytes s).q = s.q := rfl
@[simp] theorem emit_respChan (bytes : List Byte) : (emit bytes s).respChan = s.respChan := rfl
@[simp] theorem emit_port (bytes : List Byte) : (emit bytes s).port = s.port := rfl
@[simp] theorem emit_client (bytes : List Byte) : (emit bytes s).client = s.client := rfl
@[simp] theorem emit_draws (bytes : List Byte) : (emit bytes s).draws = s.draws := rfl
@[simp] theorem emit_rxRest (bytes : List Byte) : (emit bytes s).rxRest = s.rxRest := rfl
@[simp] theorem emit_inp (bytes : List Byte) : (emit bytes s).inp = s.inp := rfl
@[simp] theorem emit_sched (bytes : List Byte) : (emit bytes s).sched = s.sched := rfl
@[simp] theorem emit_resp (bytes : List Byte) : (emit bytes s).resp = s.resp := rfl
@[simp] theorem emit_tx (bytes : List Byte) : (emit bytes s).tx = s.tx ++ bytes := rfl

-- completeRead

@[simp] theorem completeRead_cfg (r : Reply) : (completeRead r s).cfg = s.cfg := rfl
@[simp] theorem completeRead_crc (r : Reply) : (completeRead r s).crc = s.crc := rfl
@[simp] theorem completeRead_rxbuf (r : Reply) : (completeRead r s).rxbuf = s.rxbuf := rfl
@[simp] theorem completeRead_rxn (r : Reply) : (completeRead r s).rxn = s.rxn := rfl
@[simp] theorem completeRead_drem (r : Reply) : (completeRead r s).drem = s.drem := rfl
@[simp] theorem completeRead_dstate (r : Reply) : (completeRead r s).dstate = s.dstate := rfl
@[simp] theorem completeRead_dead (r : Reply) : (completeRead r s).dead = s.dead := rfl
@[simp] theorem completeRead_rdPend (r : Reply) : (completeRead r s).rdPend = false := rfl
@[simp] theorem completeRead_expFrom (r : Reply) : (completeRead r s).expFrom = s.expFrom := rfl
@[simp] theorem completeRead_expTo (r : Reply) : (completeRead r s).expTo = s.expTo := rfl
@[simp] theorem completeRead_expSet (r : Reply) : (completeRead r s).expSet = s.expSet := rfl
@[simp] theorem completeRead_rdTmr (r : Reply) : (completeRead r s).rdTmr = 0 := rfl
@[simp] theorem completeRead_decAttached (r : Reply) : (completeRead r s).decAttached = s.decAttached := rfl
@[simp] theorem completeRead_q (r : Reply) : (completeRead r s).q = s.q := rfl
@[simp] theorem completeRead_respChan (r : Reply) : (completeRead r s).respChan = .idle := rfl
@[simp] theorem completeRead_port (r : Reply) : (completeRead r s).port = s.port := rfl
@[simp] theorem completeRead_draws (r : Reply) : (completeRead r s).draws = s.draws := rfl
@[simp] theorem completeRead_rxRest (r : Reply) : (completeRead r s).rxRest = s.rxRest := rfl
@[simp] theorem completeRead_inp (r : Reply) : (completeRead r s).inp = s.inp := rfl
@[simp] theorem completeRead_sched (r : Reply) : (completeRead r s).sched = s.sched := rfl
@[simp] theorem completeRead_resp (r : Reply) : (completeRead r s).resp = if s.respChan = .idle then s.resp else s.resp ++ [⟨0x20, r⟩] := rfl
@[simp] theorem completeRead_tx (r : Reply) : (completeRead r s).tx = s.tx := rfl
@[simp] theorem completeRead_client_form (r : Reply) : (completeRead r s).client.form = s.client.form := by
  unfold completeRead
  dsimp only
  split <;> rfl
@[simp] theorem completeRead_client_targetId (r : Reply) : (completeRead r s).client.targetId = s.client.targetId := by
  unfold completeRead
  dsimp only
  split <;> rfl
@[simp] theorem completeRead_client_auxId (r : Reply) : (completeRead r s).client.auxId = s.client.auxId := by
  unfold completeRead
  dsimp only
  split <;> rfl
@[simp] theorem completeRead_client_tstate (r : Reply) : (completeRead r s).client.tstate = s.client.tstate := by
  unfold completeRead
  dsimp only
  split <;> rfl
@[simp] theorem completeRead_client_lock (r : Reply) : (completeRead r s).client.lock = s.client.lock := by
  unfold completeRead
  dsimp only
  split <;> rfl
@[simp] theorem completeRead_client_pair (r : Reply) : (completeRead r s).client.pair = s.client.pair := by
  unfold completeRead
  dsimp only
  split <;> rfl
@[simp] theorem completeRead_client_proc (r : Reply) : (completeRead r s).client.proc = s.client.proc := by
  unfold completeRead
  dsimp only
  split <;> rfl
@[simp] theorem completeRead_client_inbox (r : Reply) : (completeRead r s).client.inbox = if s.respChan = .client then some r else s.client.inbox := by
  unfold completeRead
  dsimp only
  split <;> rfl
@[simp] theorem completeRead_client_caller (r : Reply) : (completeRead r s).client.caller = s.client.caller := by
  unfold completeRead
  dsimp only
  split <;> rfl
@[simp] theorem completeRead_client_holder (r : Reply) : (completeRead r s).client.holder = s.client.holder := by
  unfold completeRead
  dsimp only
  split <;> rfl
@[simp] theorem completeRead_client_waiting (r : Reply) : (completeRead r s).client.waiting = s.client.waiting := by
  unfold completeRead
  dsimp only
  split <;> rfl
@[simp] theorem completeRead_client_results (r : Reply) : (completeRead r s).client.results = s.client.results := by
  unfold completeRead
  dsimp only
  split <;> rfl

-- qPush

@[simp] theorem qPush_cfg (item : List Byte) : (qPush item s).cfg = s.cfg := by
  unfold qPush
  repeat' split
  all_goals simp
@[simp] theorem qPush_crc (item : List Byte) : (qPush item s).crc = s.crc := by
  unfold qPush
  repeat' split
  all_goals simp
@[simp] theorem qPush_rxbuf (item : List Byte) : (qPush item s).rxbuf = s.rxbuf := by
  unfold qPush
  repeat' split
  all_goals simp
@[simp] theorem qPush_rxn (item : List Byte) : (qPush item s).rxn = s.rxn := by
  unfold qPush
  repeat' split
  all_goals simp
@[simp] theorem qPush_drem (item : List Byte) : (qPush item s).drem = s.drem := by
  unfold qPush
  repeat' split
  all_goals simp
@[simp] theorem qPush_dstate (item : List Byte) : (qPush item s).dstate = s.dstate := by
  unfold qPush
  repeat' split
  all_goals simp
@[simp] theorem qPush_dead (item : List Byte) : (qPush item s).dead = s.dead := by
  unfold qPush
  repeat' split
  all_goals simp
@[simp] theorem qPush_rdPend (item : List Byte) : (qPush item s).rdPend = false := by
  unfold qPush
  split
  · rfl
  · split <;> simp_all
@[simp] theorem qPush_expFrom (item : List Byte) : (qPush item s).expFrom = s.expFrom := by
  unfold qPush
  repeat' split
  all_goals simp
@[simp] theorem qPush_expTo (item : List Byte) : (qPush item s).expTo = s.expTo := by
  unfold qPush
  repeat' split
  all_goals simp
@[simp] theorem qPush_expSet (item : List Byte) : (qPush item s).expSet = s.expSet := by
  unfold qPush
  repeat' split
  all_goals simp
@[simp] theorem qPush_decAttached (item : List Byte) : (qPush item s).decAttached = s.decAttached := by
  unfold qPush
  repeat' split
  all_goals simp
@[simp] theorem qPush_port (item : List Byte) : (qPush item s).port = s.port := by
  unfold qPush
  repeat' split
  all_goals simp
@[simp] theorem qPush_draws (item : List Byte) : (qPush item s).draws = s.draws := by
  unfold qPush
  repeat' split
  all_goals simp
@[simp] theorem qPush_rxRest (item : List Byte) : (qPush item s).rxRest = s.rxRest := by
  unfold qPush
  repeat' split
  all_goals simp
@[simp] theorem qPush_inp (item : List Byte) : (qPush item s).inp = s.inp := by
  unfold qPush
  repeat' split
  all_goals simp
@[simp] theorem qPush_sched (item : List Byte) : (qPush item s).sched = s.sched := by
  unfold qPush
  repeat' split
  all_goals simp
@[simp] theorem qPush_tx (item : List Byte) : (qPush item s).tx = s.tx := by
  unfold qPush
  repeat' split
  all_goals simp
@[simp] theorem qPush_client_form (item : List Byte) : (qPush item s).client.form = s.client.form := by
  unfold qPush
  repeat' split
  all_goals simp
@[simp] theorem qPush_client_targetId (item : List Byte) : (qPush item s).client.targetId = s.client.targetId := by
  unfold qPush
  repeat' split
  all_goals simp
@[simp] theorem qPush_client_auxId (item : List Byte) : (qPush item s).client.auxId = s.client.auxId := by
  unfold qPush
  repeat' split
  all_goals simp
@[simp] theorem qPush_client_tstate (item : List Byte) : (qPush item s).client.tstate = s.client.tstate := by
  unfold qPush
  repeat' split
  all_goals simp
@[simp] theorem qPush_client_lock (item : List Byte) : (qPush item s).client.lock = s.client.lock := by
  unfold qPush
  repeat' split
  all_goals simp
@[simp] theorem qPush_client_pair (item : List Byte) : (qPush item s).client.pair = s.client.pair := by
  unfold qPush
  repeat' split
  all_goals simp
@[simp] theorem qPush_client_proc (item : List Byte) : (qPush item s).client.proc = s.client.proc := by
  unfold qPush
  repeat' split
  all_goals simp
@[simp] theorem qPush_client_caller (item : List Byte) : (qPush item s).client.caller = s.client.caller := by
  unfold qPush
  repeat' split
  all_goals simp
@[simp] theorem qPush_client_holder (item : List Byte) : (qPush item s).client.holder = s.client.holder := by
  unfold qPush
  repeat' split
  all_goals simp
@[simp] theorem qPush_client_waiting (item : List Byte) : (qPush item s).client.waiting = s.client.waiting := by
  unfold qPush
  repeat' split
  all_goals simp
@[simp] theorem qPush_client_results (item : List Byte) : (qPush item s).client.results = s.client.results := by
  unfold qPush
  repeat' split
  all_goals simp

-- enterTerminal

@[simp] theorem enterTerminal_cfg  : (enterTerminal s).cfg = s.cfg := by
  unfold enterTerminal
  dsimp only
  split <;> simp_all
@[simp] theorem enterTerminal_crc  : (enterTerminal s).crc = s.crc := by
  unfold enterTerminal
  dsimp only
  split <;> simp_all
@[simp] theorem enterTerminal_rxbuf  : (enterTerminal s).rxbuf = s.rxbuf := by
  unfold enterTerminal
  dsimp only
  split <;> simp_all
@[simp] theorem enterTerminal_rxn  : (enterTerminal s).rxn = 0 := by
  unfold enterTerminal
  dsimp only
  split <;> simp_all
@[simp] theorem enterTerminal_drem  : (enterTerminal s).drem = s.drem := by
  unfold enterTerminal
  dsimp only
  split <;> simp_all
@[simp] theorem enterTerminal_dstate  : (enterTerminal s).dstate = .awaitFrom := by
  unfold enterTerminal
  dsimp only
  split <;> simp_all
@[simp] theorem enterTerminal_dead  : (enterTerminal s).dead = true := by
  unfold enterTerminal
  dsimp only
  split <;> simp_all
@[simp] theorem enterTerminal_rdPend  : (enterTerminal s).rdPend = false := by
  unfold enterTerminal
  dsimp only
  split <;> simp_all
@[simp] theorem enterTerminal_expFrom  : (enterTerminal s).expFrom = s.expFrom := by
  unfold enterTerminal
  dsimp only
  split <;> simp_all
@[simp] theorem enterTerminal_expTo  : (enterTerminal s).expTo = s.expTo := by
  unfold enterTerminal
  dsimp only
  split <;> simp_all
@[simp] theorem enterTerminal_expSet  : (enterTerminal s).expSet = s.expSet := by
  unfold enterTerminal
  dsimp only
  split <;> simp_all
@[simp] theorem enterTerminal_decAttached  : (enterTerminal s).decAttached = s.decAttached := by
  unfold enterTerminal
  dsimp only
  split <;> simp_all
@[simp] theorem enterTerminal_q  : (enterTerminal s).q = [] := by
  unfold enterTerminal
  dsimp only
  split <;> simp_all
@[simp] theorem enterTerminal_port  : (enterTerminal s).port = s.port := by
  unfold enterTerminal
  dsimp only
  split <;> simp_all
@[simp] theorem enterTerminal_draws  : (enterTerminal s).draws = s.draws := by
  unfold enterTerminal
  dsimp only
  split <;> simp_all
@[simp] theorem enterTerminal_rxRest  : (enterTerminal s).rxRest = s.rxRest := by
  unfold enterTerminal
  dsimp only
  split <;> simp_all
@[simp] theorem enterTerminal_inp  : (enterTerminal s).inp = s.inp := by
  unfold enterTerminal
  dsimp only
  split <;> simp_all
@[simp] theorem enterTerminal_sched  : (enterTerminal s).sched = s.sched := by
  unfold enterTerminal
  dsimp only
  split <;> simp_all
@[simp] theorem enterTerminal_tx  : (enterTerminal s).tx = s.tx := by
  unfold enterTerminal
  dsimp only
  split <;> simp_all
@[simp] theorem enterTerminal_client_form  : (enterTerminal s).client.form = s.client.form := by
  unfold enterTerminal
  dsimp only
  split <;> simp_all
@[simp] theorem enterTerminal_client_targetId  : (enterTerminal s).client.targetId = s.client.targetId := by
  unfold enterTerminal
  dsimp only
  split <;> simp_all
@[simp] theorem enterTerminal_client_auxId  : (enterTerminal s).client.auxId = s.client.auxId := by
  unfold enterTerminal
  dsimp only
  split <;> simp_all
@[simp] theorem enterTerminal_client_tstate  : (enterTerminal s).client.tstate = s.client.tstate := by
  unfold enterTerminal
  dsimp only
  split <;> simp_all
@[simp] theorem enterTerminal_client_lock  : (enterTerminal s).client.lock = s.client.lock := by
  unfold enterTerminal
  dsimp only
  split <;> simp_all
@[simp] theorem enterTerminal_client_pair  : (enterTerminal s).client.pair = s.client.pair := by
  unfold enterTerminal
  dsimp only
  split <;> simp_all
@[simp] theorem enterTerminal_client_proc  : (enterTerminal s).client.proc = s.client.proc := by
  unfold enterTerminal
  dsimp only
  split <;> simp_all
@[simp] theorem enterTerminal_client_caller  : (enterTerminal s).client.caller = s.client.caller := by
  unfold enterTerminal
  dsimp only
  split <;> simp_all
@[simp] theorem enterTerminal_client_holder  : (enterTerminal s).client.holder = s.client.holder := by
  unfold enterTerminal
  dsimp only
  split <;> simp_all
@[simp] theorem enterTerminal_client_waiting  : (enterTerminal s).client.waiting = s.client.waiting := by
  unfold enterTerminal
  dsimp only
  split <;> simp_all
@[simp] theorem enterTerminal_client_results  : (enterTerminal s).client.results = s.client.results := by
  unfold enterTerminal
  dsimp only
  split <;> simp_all

-- tickTimer

@[simp] theorem tickTimer_cfg  : (tickTimer s).cfg = s.cfg := by
  unfold tickTimer
  dsimp only
  repeat' split
  all_goals simp
@[simp] theorem tickTimer_crc  : (tickTimer s).crc = s.crc := by
  unfold tickTimer
  dsimp only
  repeat' split
  all_goals simp
@[simp] theorem tickTimer_rxbuf  : (tickTimer s).rxbuf = s.rxbuf := by
  unfold tickTimer
  dsimp only
  repeat' split
  all_goals simp
@[simp] theorem tickTimer_rxn  : (tickTimer s).rxn = s.rxn := by
  unfold tickTimer
  dsimp only
  repeat' split
  all_goals simp
@[simp] theorem tickTimer_drem  : (tickTimer s).drem = s.drem := by
  unfold tickTimer
  dsimp only
  repeat' split
  all_goals simp
@[simp] theorem tickTimer_dstate  : (tickTimer s).dstate = s.dstate := by
  unfold tickTimer
  dsimp only
  repeat' split
  all_goals simp
@[simp] theorem tickTimer_dead  : (tickTimer s).dead = s.dead := by
  unfold tickTimer
  dsimp only
  repeat' split
  all_goals simp
@[simp] theorem tickTimer_expFrom  : (tickTimer s).expFrom = s.expFrom := by
  unfold tickTimer
  dsimp only
  repeat' split
  all_goals simp
@[simp] theorem tickTimer_expTo  : (tickTimer s).expTo = s.expTo := by
  unfold tickTimer
  dsimp only
  repeat' split
  all_goals simp
@[simp] theorem tickTimer_expSet  : (tickTimer s).expSet = s.expSet := by
  unfold tickTimer
  dsimp only
  repeat' split
  all_goals simp
@[simp] theorem tickTimer_decAttached  : (tickTimer s).decAttached = s.decAttached := by
  unfold tickTimer
  dsimp only
  repeat' split
  all_goals simp
@[simp] theorem tickTimer_q  : (tickTimer s).q = s.q := by
  unfold tickTimer
  dsimp only
  repeat' split
  all_goals simp
@[simp] theorem tickTimer_port  : (tickTimer s).port = s.port := by
  unfold tickTimer
  dsimp only
  repeat' split
  all_goals simp
@[simp] theorem tickTimer_draws  : (tickTimer s).draws = s.draws := by
  unfold tickTimer
  dsimp only
  repeat' split
  all_goals simp
@[simp] theorem tickTimer_rxRest  : (tickTimer s).rxRest = s.rxRest := by
  unfold tickTimer
  dsimp only
  repeat' split
  all_goals simp
@[simp] theorem tickTimer_inp  : (tickTimer s).inp = s.inp := by
  unfold tickTimer
  dsimp only
  repeat' split
  all_goals simp
@[simp] theorem tickTimer_sched  : (tickTimer s).sched = s.sched := by
  unfold tickTimer
  dsimp only
  repeat' split
  all_goals simp
@[simp] theorem tickTimer_tx  : (tickTimer s).tx = s.tx := by
  unfold tickTimer
  dsimp only
  repeat' split
  all_goals simp
@[simp] theorem tickTimer_client_form  : (tickTimer s).client.form = s.client.form := by
  unfold tickTimer
  dsimp only
  repeat' split
  all_goals simp
@[simp] theorem tickTimer_client_targetId  : (tickTimer s).client.targetId = s.client.targetId := by
  unfold tickTimer
  dsimp only
  repeat' split
  all_goals simp
@[simp] theorem tickTimer_client_auxId  : (tickTimer s).client.auxId = s.client.auxId := by
  unfold tickTimer
  dsimp only
  repeat' split
  all_goals simp
@[simp] theorem tickTimer_client_tstate  : (tickTimer s).client.tstate = s.client.tstate := by
  unfold tickTimer
  dsimp only
  repeat' split
  all_goals simp
@[simp] theorem tickTimer_client_lock  : (tickTimer s).client.lock = s.client.lock := by
  unfold tickTimer
  dsimp only
  repeat' split
  all_goals simp
@[simp] theorem tickTimer_client_pair  : (tickTimer s).client.pair = s.client.pair := by
  unfold tickTimer
  dsimp only
  repeat' split
  all_goals simp
@[simp] theorem tickTimer_client_proc  : (tickTimer s).client.proc = s.client.proc := by
  unfold tickTimer
  dsimp only
  repeat' split
  all_goals simp
@[simp] theorem tickTimer_client_caller  : (tickTimer s).client.caller = s.client.caller := by
  unfold tickTimer
  dsimp only
  repeat' split
  all_goals simp
@[simp] theorem tickTimer_client_holder  : (tickTimer s).client.holder = s.client.holder := by
  unfold tickTimer
  dsimp only
  repeat' split
  all_goals simp
@[simp] theorem tickTimer_client_waiting  : (tickTimer s).client.waiting = s.client.waiting := by
  unfold tickTimer
  dsimp only
  repeat' split
  all_goals simp
@[simp] theorem tickTimer_client_results  : (tickTimer s).client.results = s.client.results := by
  unfold tickTimer
  dsimp only
  repeat' split
  all_goals simp

-- setProc

@[simp] theorem setProc_cfg (ctx : Ctx) (stage : Stage) : (setProc ctx stage s).cfg = s.cfg := rfl
@[simp] theorem setProc_crc (ctx : Ctx) (stage : Stage) : (setProc ctx stage s).crc = s.crc := rfl
@[simp] theorem setProc_rxbuf (ctx : Ctx) (stage : Stage) : (setProc ctx stage s).rxbuf = s.rxbuf := rfl
@[simp] theorem setProc_rxn (ctx : Ctx) (stage : Stage) : (setProc ctx stage s).rxn = s.rxn := rfl
@[simp] theorem setProc_drem (ctx : Ctx) (stage : Stage) : (setProc ctx stage s).drem = s.drem := rfl
@[simp] theorem setProc_dstate (ctx : Ctx) (stage : Stage) : (setProc ctx stage s).dstate = s.dstate := rfl
@[simp] theorem setProc_dead (ctx : Ctx) (stage : Stage) : (setProc ctx stage s).dead = s.dead := rfl
@[simp] theorem setProc_rdPend (ctx : Ctx) (stage : Stage) : (setProc ctx stage s).rdPend = s.rdPend := rfl
@[simp] theorem setProc_expFrom (ctx : Ctx) (stage : Stage) : (setProc ctx stage s).expFrom = s.expFrom := rfl
@[simp] theorem setProc_expTo (ctx : Ctx) (stage : Stage) : (setProc ctx stage s).expTo = s.expTo := rfl
@[simp] theorem setProc_expSet (ctx : Ctx) (stage : Stage) : (setProc ctx stage s).expSet = s.expSet := rfl
@[simp] theorem setProc_rdTmr (ctx : Ctx) (stage : Stage) : (setProc ctx stage s).rdTmr = s.rdTmr := rfl
@[simp] theorem setProc_decAttached (ctx : Ctx) (stage : Stage) : (setProc ctx stage s).decAttached = s.decAttached := rfl
@[simp] theorem setProc_q (ctx : Ctx) (stage : Stage) : (setProc ctx stage s).q = s.q := rfl
@[simp] theorem setProc_respChan (ctx : Ctx) (stage : Stage) : (setProc ctx stage s).respChan = s.respChan := rfl
@[simp] theorem setProc_port (ctx : Ctx) (stage : Stage) : (setProc ctx stage s).port = s.port := rfl
@[simp] theorem setProc_draws (ctx : Ctx) (stage : Stage) : (setProc ctx stage s).draws = s.draws := rfl
@[simp] theorem setProc_rxRest (ctx : Ctx) (stage : Stage) : (setProc ctx stage s).rxRest = s.rxRest := rfl
@[simp] theorem setProc_inp (ctx : Ctx) (stage : Stage) : (setProc ctx stage s).inp = s.inp := rfl
@[simp] theorem setProc_sched (ctx : Ctx) (stage : Stage) : (setProc ctx stage s).sched = s.sched := rfl
@[simp] theorem setProc_resp (ctx : Ctx) (stage : Stage) : (setProc ctx stage s).resp = s.resp := rfl
@[simp] theorem setProc_tx (ctx : Ctx) (stage : Stage) : (setProc ctx stage s).tx = s.tx := rfl
@[simp] theorem setProc_client_form (ctx : Ctx) (stage : Stage) : (setProc ctx stage s).client.form = s.client.form := rfl
@[simp] theorem setProc_client_targetId (ctx : Ctx) (stage : Stage) : (setProc ctx stage s).client.targetId = s.client.targetId := rfl
@[simp] theorem setProc_client_auxId (ctx : Ctx) (stage : Stage) : (setProc ctx stage s).client.auxId = s.client.auxId := rfl
@[simp] theorem setProc_client_tstate (ctx : Ctx) (stage : Stage) : (setProc ctx stage s).client.tstate = s.client.tstate := rfl
@[simp] theorem setProc_client_lock (ctx : Ctx) (stage : Stage) : (setProc ctx stage s).client.lock = s.client.lock := rfl
@[simp] theorem setProc_client_pair (ctx : Ctx) (stage : Stage) : (setProc ctx stage s).client.pair = s.client.pair := rfl
@[simp] theorem setProc_client_proc (ctx : Ctx) (stage : Stage) : (setProc ctx stage s).client.proc = some ⟨ctx, stage⟩ := rfl
@[simp] theorem setProc_client_inbox (ctx : Ctx) (stage : Stage) : (setProc ctx stage s).client.inbox = s.client.inbox := rfl
@[simp] theorem setProc_client_caller (ctx : Ctx) (stage : Stage) : (setProc ctx stage s).client.caller = s.client.caller := rfl
@[simp] theorem setProc_client_holder (ctx : Ctx) (stage : Stage) : (setProc ctx stage s).client.holder = s.client.holder := rfl
@[simp] theorem setProc_client_waiting (ctx : Ctx) (stage : Stage) : (setProc ctx stage s).client.waiting = s.client.waiting := rfl
@[simp] theorem setProc_client_results (ctx : Ctx) (stage : Stage) : (setProc ctx stage s).client.results = s.client.results := rfl

-- finishCall

@[simp] theorem finishCall_cfg (r : CallResult) : (finishCall r s).cfg = s.cfg := rfl
@[simp] theorem finishCall_crc (r : CallResult) : (finishCall r s).crc = s.crc := rfl
@[simp] theorem finishCall_rxbuf (r : CallResult) : (finishCall r s).rxbuf = s.rxbuf := rfl
@[simp] theorem finishCall_rxn (r : CallResult) : (finishCall r s).rxn = s.rxn := rfl
@[simp] theorem finishCall_drem (r : CallResult) : (finishCall r s).drem = s.drem := rfl
@[simp] theorem finishCall_dstate (r : CallResult) : (finishCall r s).dstate = s.dstate := rfl
@[simp] theorem finishCall_dead (r : CallResult) : (finishCall r s).dead = s.dead := rfl
@[simp] theorem finishCall_rdPend (r : CallResult) : (finishCall r s).rdPend = s.rdPend := rfl
@[simp] theorem finishCall_expFrom (r : CallResult) : (finishCall r s).expFrom = s.expFrom := rfl
@[simp] theorem finishCall_expTo (r : CallResult) : (finishCall r s).expTo = s.expTo := rfl
@[simp] theorem finishCall_expSet (r : CallResult) : (finishCall r s).expSet = s.expSet := rfl
@[simp] theorem finishCall_rdTmr (r : CallResult) : (finishCall r s).rdTmr = s.rdTmr := rfl
@[simp] theorem finishCall_decAttached (r : CallResult) : (finishCall r s).decAttached = s.decAttached := rfl
@[simp] theorem finishCall_q (r : CallResult) : (finishCall r s).q = s.q := rfl
@[simp] theorem finishCall_respChan (r : CallResult) : (finishCall r s).respChan = s.respChan := rfl
@[simp] theorem finishCall_port (r : CallResult) : (finishCall r s).port = s.port := rfl
@[simp] theorem finishCall_draws (r : CallResult) : (finishCall r s).draws = s.draws := rfl
@[simp] theorem finishCall_rxRest (r : CallResult) : (finishCall r s).rxRest = s.rxRest := rfl
@[simp] theorem finishCall_inp (r : CallResult) : (finishCall r s).inp = s.inp := rfl
@[simp] theorem finishCall_sched (r : CallResult) : (finishCall r s).sched = s.sched := rfl
@[simp] theorem finishCall_resp (r : CallResult) : (finishCall r s).resp = s.resp := rfl
@[simp] theorem finishCall_tx (r : CallResult) : (finishCall r s).tx = s.tx := rfl
@[simp] theorem finishCall_client_form (r : CallResult) : (finishCall r s).client.form = s.client.form := rfl
@[simp] theorem finishCall_client_targetId (r : CallResult) : (finishCall r s).client.targetId = s.client.targetId := rfl
@[simp] theorem finishCall_client_auxId (r : CallResult) : (finishCall r s).client.auxId = s.client.auxId := rfl
@[simp] theorem finishCall_client_tstate (r : CallResult) : (finishCall r s).client.tstate = s.client.tstate := rfl
@[simp] theorem finishCall_client_lock (r : CallResult) : (finishCall r s).client.lock = opensPair r := rfl
@[simp] theorem finishCall_client_pair (r : CallResult) : (finishCall r s).client.pair = opensPair r := rfl
@[simp] theorem finishCall_client_proc (r : CallResult) : (finishCall r s).client.proc = none := rfl
@[simp] theorem finishCall_client_inbox (r : CallResult) : (finishCall r s).client.inbox = s.client.inbox := rfl
@[simp] theorem finishCall_client_caller (r : CallResult) : (finishCall r s).client.caller = s.client.caller := rfl
@[simp] theorem finishCall_client_holder (r : CallResult) : (finishCall r s).client.holder = s.client.holder := rfl
@[simp] theorem finishCall_client_waiting (r : CallResult) : (finishCall r s).client.waiting = s.client.waiting := rfl
@[simp] theorem finishCall_client_results (r : CallResult) : (finishCall r s).client.results = s.client.results ++ [r] := rfl

-- drawSlots

@[simp] theorem drawSlots_cfg (d : Descriptor) (a b : Byte) : (drawSlots d a b s).cfg = s.cfg := by
  unfold drawSlots
  split <;> rfl
@[simp] theorem drawSlots_crc (d : Descriptor) (a b : Byte) : (drawSlots d a b s).crc = s.crc := by
  unfold drawSlots
  split <;> rfl
@[simp] theorem drawSlots_rxbuf (d : Descriptor) (a b : Byte) : (drawSlots d a b s).rxbuf = s.rxbuf := by
  unfold drawSlots
  split <;> rfl
@[simp] theorem drawSlots_rxn (d : Descriptor) (a b : Byte) : (drawSlots d a b s).rxn = s.rxn := by
  unfold drawSlots
  split <;> rfl
@[simp] theorem drawSlots_drem (d : Descriptor) (a b : Byte) : (drawSlots d a b s).drem = s.drem := by
  unfold drawSlots
  split <;> rfl
@[simp] theorem drawSlots_dstate (d : Descriptor) (a b : Byte) : (drawSlots d a b s).dstate = s.dstate := by
  unfold drawSlots
  split <;> rfl
@[simp] theorem drawSlots_dead (d : Descriptor) (a b : Byte) : (drawSlots d a b s).dead = s.dead := by
  unfold drawSlots
  split <;> rfl
@[simp] theorem drawSlots_rdPend (d : Descriptor) (a b : Byte) : (drawSlots d a b s).rdPend = s.rdPend := by
  unfold drawSlots
  split <;> rfl
@[simp] theorem drawSlots_expFrom (d : Descriptor) (a b : Byte) : (drawSlots d a b s).expFrom = s.expFrom := by
  unfold drawSlots
  split <;> rfl
@[simp] theorem drawSlots_expTo (d : Descriptor) (a b : Byte) : (drawSlots d a b s).expTo = s.expTo := by
  unfold drawSlots
  split <;> rfl
@[simp] theorem drawSlots_expSet (d : Descriptor) (a b : Byte) : (drawSlots d a b s).expSet = s.expSet := by
  unfold drawSlots
  split <;> rfl
@[simp] theorem drawSlots_rdTmr (d : Descriptor) (a b : Byte) : (drawSlots d a b s).rdTmr = s.rdTmr := by
  unfold drawSlots
  split <;> rfl
@[simp] theorem drawSlots_decAttached (d : Descriptor) (a b : Byte) : (drawSlots d a b s).decAttached = s.decAttached := by
  unfold drawSlots
  split <;> rfl
@[simp] theorem drawSlots_q (d : Descriptor) (a b : Byte) : (drawSlots d a b s).q = s.q := by
  unfold drawSlots
  split <;> rfl
@[simp] theorem drawSlots_respChan (d : Descriptor) (a b : Byte) : (drawSlots d a b s).respChan = s.respChan := by
  unfold drawSlots
  split <;> rfl
@[simp] theorem drawSlots_port (d : Descriptor) (a b : Byte) : (drawSlots d a b s).port = s.port := by
  unfold drawSlots
  split <;> rfl
@[simp] theorem drawSlots_client (d : Descriptor) (a b : Byte) : (drawSlots d a b s).client = s.client := by
  unfold drawSlots
  split <;> rfl
@[simp] theorem drawSlots_rxRest (d : Descriptor) (a b : Byte) : (drawSlots d a b s).rxRest = s.rxRest := by
  unfold drawSlots
  split <;> rfl
@[simp] theorem drawSlots_inp (d : Descriptor) (a b : Byte) : (drawSlots d a b s).inp = s.inp := by
  unfold drawSlots
  split <;> rfl
@[simp] theorem drawSlots_sched (d : Descriptor) (a b : Byte) : (drawSlots d a b s).sched = s.sched := by
  unfold drawSlots
  split <;> rfl
@[simp] theorem drawSlots_resp (d : Descriptor) (a b : Byte) : (drawSlots d a b s).resp = s.resp := by
  unfold drawSlots
  split <;> rfl
@[simp] theorem drawSlots_tx (d : Descriptor) (a b : Byte) : (drawSlots d a b s).tx = s.tx := by
  unfold drawSlots
  split <;> rfl

end Sys2Proof.Machine
end

