-- ==== Sys2Proof/Laws/HostClient.lean ====
section
/-! SUPPORT. What the host agent's shared operations do: the lock and its pair, the beginning of a call, the service
of a waiting caller. -/

namespace Sys2Proof.Machine

@[simp] theorem opensPair_send_ok (f : Option Frame) : opensPair (.status 0x41 .ok f) = true := rfl

theorem opensPair_send_failed {status : Status} (h : status ≠ .ok) (f : Option Frame) :
    opensPair (.status 0x41 status f) = false := by
  simp [opensPair, h]

@[simp] theorem opensPair_pend (status : Status) (f : Option Frame) : opensPair (.status 0x42 status f) = false := rfl

@[simp] theorem opensPair_connectTo (status : Status) (f : Option Frame) :
    opensPair (.status 0x40 status f) = false := rfl

@[simp] theorem opensPair_connectDevice (status : Status) (f : Option Frame) :
    opensPair (.status 0x44 status f) = false := rfl

@[simp] theorem opensPair_range (slots : List Slot) : opensPair (.range slots) = false := rfl

@[simp] theorem isPend_pend (rw : Bool) (d : Descriptor) (timeout : Option Word) :
    isPend (.pend rw d timeout) = true := rfl

/-- A free lock is taken by the call of any caller (R224). -/
theorem mayCall_of_free {s : State} (h : s.client.proc = none) (hl : s.client.lock = false) (c : Nat) (i : Instr) :
    mayCall c i s := ⟨h, fun h' => by rw [hl] at h'; cases h'⟩

/-- The two things a call can do (R224). -/
theorem beginCall_cases (i : Instr) (p : Proc) (s : State) :
    (mayCall s.client.caller i s ∧ beginCall i p s = clientTurn { s with
      client := { s.client with lock := true, holder := s.client.caller, proc := some p } }) ∨
    (¬ mayCall s.client.caller i s ∧ beginCall i p s =
      { s with client := { s.client with waiting := s.client.waiting ++ [(s.client.caller, i)] } }) := by
  by_cases h : mayCall s.client.caller i s
  · exact .inl ⟨h, if_pos h⟩
  · exact .inr ⟨h, if_neg h⟩

/-- The two things the draw of a free value can do. -/
theorem drawSlots_cases (d : Descriptor) (a b : Byte) (s : State) :
    drawSlots d a b s = { s with draws := s.draws + 1 } ∨ drawSlots d a b s = s := by
  unfold drawSlots
  split
  · exact .inl rfl
  · exact .inr rfl

/-- What a waiting caller's turn can do: nothing, or the procedure it called. -/
theorem callerTurn_eq_next {k : Nat} {s t : State} (h : callerTurn k s = .next t) :
    t = s ∨ ∃ c i u, s.client.waiting[k]? = some (c, i) ∧ mayCall c i s ∧
      exec i { s with client := { s.client with caller := c, waiting := s.client.waiting.eraseIdx k } } =
        .next u ∧ t = { u with client := { u.client with caller := s.client.caller } } := by
  unfold callerTurn at h
  split at h
  · exact .inl (by cases h; rfl)
  · rename_i c i hw
    split at h
    · rename_i hm
      split at h
      · rename_i u hu
        cases h
        exact .inr ⟨c, i, u, hw, hm, hu, rfl⟩
      · cases h
      · cases h
    · exact .inl (by cases h; rfl)

end Sys2Proof.Machine
end

