-- ==== Sys2Proof/Laws/Operands.lean ====
section
/-! SUPPORT. The fields of packed bytes as numbers, and what packing and extraction do to one another. -/

namespace Sys2Proof.Machine

set_option Elab.async false

theorem hiBit_packByte (x : Bool) (y : Field7) : hiBit (packByte x y) = x := by
  revert x y; decide +kernel

theorem low7_packByte (x : Bool) (y : Field7) : low7 (packByte x y) = y := by
  revert x y; decide +kernel

theorem packByte_hiBit_low7 (b : Byte) : packByte (hiBit b) (low7 b) = b := by
  revert b; decide +kernel

theorem packByte_eq_ofNat (x : Bool) (y : Field7) :
    packByte x y = BitVec.ofNat 8 (128 * x.toNat + y.toNat) := by
  revert x y; decide +kernel

theorem hiBit_eq_toNat (b : Byte) : hiBit b = decide (128 ≤ b.toNat) := by
  revert b; decide +kernel

theorem hiBit_toNat (b : Byte) : (hiBit b).toNat = b.toNat / 128 := by
  revert b; decide +kernel

theorem low7_toNat (b : Byte) : (low7 b).toNat = b.toNat % 128 := by
  simp [low7]

theorem low4_toNat (b : Byte) : (low4 b).toNat = b.toNat % 16 := by
  simp [low4]

theorem byte7_toNat (v : Field7) : (byte7 v).toNat = v.toNat := by
  simp only [byte7, BitVec.toNat_setWidth]
  have := v.isLt
  omega

theorem byte7_eq_ofNat (v : Field7) : byte7 v = BitVec.ofNat 8 v.toNat := by
  revert v; decide +kernel

theorem low7_byte7 (v : Field7) : low7 (byte7 v) = v := by
  revert v; decide +kernel

theorem hiBit_byte7 (v : Field7) : hiBit (byte7 v) = false := by
  revert v; decide +kernel

theorem byte7_low7_of_legal (b : Byte) (h : hiBit b = false) : byte7 (low7 b) = b := by
  revert b; decide +kernel

theorem flBit1_flByte (x y : Bool) : flBit1 (flByte x y) = x := by
  revert x y; decide

theorem flBit0_flByte (x y : Bool) : flBit0 (flByte x y) = y := by
  revert x y; decide

theorem flIllegal_flByte (x y : Bool) : flIllegal (flByte x y) = false := by
  revert x y; decide

theorem flByte_eq_ofNat (x y : Bool) : flByte x y = BitVec.ofNat 8 (2 * x.toNat + y.toNat) := by
  revert x y; decide

theorem flIllegal_eq_toNat (fl : Byte) : flIllegal fl = decide (4 ≤ fl.toNat) := by
  revert fl; decide +kernel

theorem flBit1_toNat (fl : Byte) : (flBit1 fl).toNat = fl.toNat / 2 % 2 := by
  revert fl; decide +kernel

theorem flBit0_toNat (fl : Byte) : (flBit0 fl).toNat = fl.toNat % 2 := by
  revert fl; decide +kernel

theorem timeoutOf_toNat (tHi tLo : Byte) : (timeoutOf tHi tLo).toNat = 256 * tHi.toNat + tLo.toNat := by
  have := tLo.isLt
  rw [timeoutOf, BitVec.toNat_append, Nat.shiftLeft_eq, Nat.mul_comm]
  have := Nat.two_pow_add_eq_or_of_lt (i := 8) (b := tLo.toNat) (by omega) tHi.toNat
  omega

theorem timeoutOf_eq_ofNat (tHi tLo : Byte) :
    timeoutOf tHi tLo = BitVec.ofNat 16 (256 * tHi.toNat + tLo.toNat) := by
  rw [← timeoutOf_toNat, BitVec.ofNat_toNat, BitVec.setWidth_eq]

/-- `id_match` as the three cases of R82. -/
theorem idMatch_iff {n : Nat} (b e w : BitVec n) : idMatch b e w = true ↔ b = e ∨ b = w ∨ e = w := by
  simp [idMatch, or_assoc]

theorem countByte_toNat (bytes : List Byte) (h : bytes.length ≤ 255) :
    (countByte bytes).toNat = bytes.length := by
  simp only [countByte, BitVec.toNat_ofNat]
  omega

theorem lenField_toNat (data : List Byte) (h : data.length ≤ 126) :
    (lenField data).toNat = data.length + 1 := by
  simp only [lenField, BitVec.toNat_ofNat]
  omega

theorem raise_result (st : Status) : (raise st).result = [] := rfl

theorem raise_status (st : Status) : (raise st).status = st := rfl

/-- What a request's sizing answers (R222): the payload's own length, and a fixed length only when they agree. -/
theorem requestLength_eq_some {d : Descriptor} {rw : Bool} {payload : List Byte} {len : Nat}
    (h : requestLength d rw payload = some len) : len = payload.length := by
  unfold requestLength at h
  split at h
  · exact (Option.some.inj h).symm
  · split at h
    · rename_i hn
      rw [← Option.some.inj h, hn]
    · cases h

end Sys2Proof.Machine
end

