-- ==== Sys2Proof/Laws/Ops.lean ====
section
/-! SUPPORT. What the shared operations over RXBUF, the queue and the pending read do. -/

namespace Sys2Proof.Machine

/-! ### RXBUF -/

theorem readByte_of_lt {m : List Host.Cell} {a : Nat} (h : ∀ x ∈ m, a < x.1) : readByte m a = 0 := by
  induction m with
  | nil => rfl
  | cons x m ih =>
    obtain ⟨k, v⟩ := x
    have hk : a < k := h (k, v) (by simp)
    rw [readByte, if_neg (by omega)]
    exact ih fun y hy => h y (by simp [hy])

/-- A read after a write to the same offset gives the byte written; every other offset reads as before. -/
theorem readByte_writeByte {m : List Host.Cell} (hm : m.Pairwise fun x y => x.1 < y.1) (a c : Nat)
    (b : Byte) : readByte (writeByte m a b) c = if c = a then b else readByte m c := by
  induction m with
  | nil =>
    unfold writeByte
    split
    · rename_i hb
      simp [readByte, hb]
    · simp [readByte, eq_comm]
  | cons x m ih =>
    obtain ⟨k, v⟩ := x
    obtain ⟨hlt, hm⟩ := List.pairwise_cons.1 hm
    have ih := ih hm
    unfold writeByte
    split
    · rename_i hak
      have h0 : readByte ((k, v) :: m) a = 0 :=
        readByte_of_lt fun y hy => by
          rcases List.mem_cons.1 hy with rfl | hy
          · exact hak
          · exact Nat.lt_trans hak (hlt y hy)
      split
      · rename_i hb
        by_cases hc : c = a
        · simp [hc, h0, hb]
        · simp [hc]
      · by_cases hc : c = a
        · simp [readByte, hc]
        · rw [readByte, if_neg (fun h => hc h.symm), if_neg hc]
    · split
      · rename_i hak
        subst hak
        have h0 : readByte m a = 0 := readByte_of_lt hlt
        split
        · rename_i hb
          by_cases hc : c = a
          · simp [hc, h0, hb]
          · rw [if_neg hc, readByte, if_neg (fun h => hc h.symm)]
        · by_cases hc : c = a
          · simp [readByte, hc]
          · rw [if_neg hc, readByte, readByte, if_neg (fun h => hc h.symm), if_neg (fun h => hc h.symm)]
      · rename_i h1 h2
        rw [readByte, readByte, ih]
        by_cases hk : k = c
        · rw [if_pos hk, if_pos hk, if_neg (by omega)]
        · simp [hk]

theorem mem_writeByte {m : List Host.Cell} {a : Nat} {b : Byte} {x : Host.Cell}
    (h : x ∈ writeByte m a b) : x ∈ m ∨ (x = (a, b) ∧ b ≠ 0) := by
  induction m with
  | nil =>
    unfold writeByte at h
    split at h <;> simp_all
  | cons y m ih =>
    obtain ⟨k, v⟩ := y
    unfold writeByte at h
    split at h
    · split at h <;> simp_all; tauto
    · split at h
      · split at h <;> simp_all; tauto
      · rcases List.mem_cons.1 h with h | h
        · simp [h]
        · rcases ih h with h | h
          · simp [h]
          · exact .inr h

/-- Every write keeps the canonical form of RXBUF. -/
theorem wf_writeByte {size : Nat} {m : List Host.Cell} (h : Memory.wf size m) {a : Nat} (ha : a < size)
    (b : Byte) : Memory.wf size (writeByte m a b) := by
  obtain ⟨hp, hv⟩ := h
  refine ⟨?_, fun x hx => ?_⟩
  · clear hv
    induction m with
    | nil =>
      unfold writeByte
      split <;> simp
    | cons x m ih =>
      obtain ⟨k, v⟩ := x
      have hp0 := hp
      obtain ⟨hlt, hp⟩ := List.pairwise_cons.1 hp
      unfold writeByte
      split
      · rename_i hak
        split
        · exact hp0
        · refine List.pairwise_cons.2 ⟨fun y hy => ?_, hp0⟩
          rcases List.mem_cons.1 hy with rfl | hy
          · exact hak
          · exact Nat.lt_trans hak (hlt y hy)
      · split
        · rename_i hak
          split
          · exact hp
          · exact List.pairwise_cons.2 ⟨fun y hy => hak ▸ hlt y hy, hp⟩
        · rename_i h1 h2
          refine List.pairwise_cons.2 ⟨fun y hy => ?_, ih hp⟩
          rcases mem_writeByte hy with hy | ⟨rfl, -⟩
          · exact hlt y hy
          · show k < a
            omega
  · rcases mem_writeByte hx with hx | ⟨rfl, hb⟩
    · exact hv x hx
    · exact ⟨ha, hb⟩

@[simp] theorem readBytes_length (m : List Host.Cell) (i n : Nat) : (readBytes m i n).length = n := by
  induction n generalizing i with
  | zero => rfl
  | succ n ih => simp [readBytes, ih]

theorem readBytes_add (m : List Host.Cell) (i n k : Nat) :
    readBytes m i (n + k) = readBytes m i n ++ readBytes m (i + n) k := by
  induction n generalizing i with
  | zero => simp [readBytes]
  | succ n ih => rw [show n + 1 + k = n + k + 1 by omega, readBytes, readBytes, ih]; simp; congr 1; omega

theorem readBytes_take (m : List Host.Cell) (i n k : Nat) (h : k ≤ n) :
    (readBytes m i n).take k = readBytes m i k := by
  obtain ⟨j, rfl⟩ := Nat.exists_eq_add_of_le h
  rw [readBytes_add, List.take_left' (readBytes_length ..)]

theorem readBytes_drop (m : List Host.Cell) (i n k : Nat) (h : k ≤ n) :
    (readBytes m i n).drop k = readBytes m (i + k) (n - k) := by
  obtain ⟨j, rfl⟩ := Nat.exists_eq_add_of_le h
  rw [readBytes_add, List.drop_left' (readBytes_length ..), Nat.add_sub_cancel_left]

theorem readBytes_getD (m : List Host.Cell) (i n k : Nat) (h : k < n) :
    (readBytes m i n).getD k 0 = readByte m (i + k) := by
  induction n generalizing i k with
  | zero => omega
  | succ n ih =>
    cases k with
    | zero => simp [readBytes]
    | succ k =>
      rw [readBytes, List.getD_cons_succ, ih _ _ (by omega)]
      congr 1
      omega

theorem readBytes_congr {m m' : List Host.Cell} {i n : Nat}
    (h : ∀ a, i ≤ a → a < i + n → readByte m a = readByte m' a) : readBytes m i n = readBytes m' i n := by
  induction n generalizing i with
  | zero => rfl
  | succ n ih =>
    rw [readBytes, readBytes, h i (by omega) (by omega), ih fun a h1 h2 => h a (by omega) (by omega)]

/-! ### Storing a byte, the pending read, the queue -/

/-- What `storeRx` can do: nothing, or store the byte at RXN and count it. -/
theorem storeRx_eq_some {b : Byte} {s t : State} (h : storeRx b s = some t) :
    s.rxn.toNat < s.cfg.rxbufSize ∧
      t = { s with rxbuf := writeByte s.rxbuf s.rxn.toNat b, rxn := s.rxn + 1 } := by
  unfold storeRx at h
  split at h
  · rename_i hlt
    exact ⟨hlt, (Option.some.inj h).symm⟩
  · cases h

theorem storeRx_of_lt {b : Byte} {s : State} (h : s.rxn.toNat < s.cfg.rxbufSize) :
    storeRx b s = some { s with rxbuf := writeByte s.rxbuf s.rxn.toNat b, rxn := s.rxn + 1 } := if_pos h

/-- The three things `q_push` can do (R181). -/
theorem qPush_cases (item : List Byte) (s : State) :
    (s.rdPend = true ∧ qPush item s = completeRead (respond .ok (countByte item :: item)) s) ∨
    (s.rdPend = false ∧ s.q.length = s.cfg.qCap ∧ qPush item s = { s with q := s.q.drop 1 ++ [item] }) ∨
    (s.rdPend = false ∧ s.q.length ≠ s.cfg.qCap ∧ qPush item s = { s with q := s.q ++ [item] }) := by
  unfold qPush
  cases s.rdPend with
  | true => exact .inl ⟨rfl, if_pos rfl⟩
  | false =>
    by_cases h : s.q.length = s.cfg.qCap
    · exact .inr (.inl ⟨rfl, h, by simp [h]⟩)
    · exact .inr (.inr ⟨rfl, h, by simp [h]⟩)

/-- The two things the terminal entry can do (R264). -/
theorem enterTerminal_cases (s : State) :
    (s.rdPend = true ∧ enterTerminal s =
      completeRead (raise .dead) { s with dead := true, q := [], rxn := 0, dstate := .awaitFrom }) ∨
    (s.rdPend = false ∧
      enterTerminal s = { s with dead := true, q := [], rxn := 0, dstate := .awaitFrom }) := by
  unfold enterTerminal clearDecoder
  cases h : s.rdPend with
  | true => exact .inl ⟨rfl, by simp⟩
  | false => exact .inr ⟨rfl, by simp⟩

/-- The four things an accepted Q.READ can do (R186). -/
theorem qRead_cases (who : RespChan) (t : Word) (s : State) :
    (s.dead = true ∧ qRead who t s = (s, some (raise .dead))) ∨
    (∃ item rest, s.dead = false ∧ s.q = item :: rest ∧
      qRead who t s = ({ s with q := rest }, some (respond .ok (countByte item :: item)))) ∨
    (s.dead = false ∧ s.q = [] ∧ t = 0 ∧ qRead who t s = (s, some (raise .none))) ∨
    (s.dead = false ∧ s.q = [] ∧ t ≠ 0 ∧ qRead who t s = (armRead who t s, none)) := by
  unfold qRead
  cases hd : s.dead with
  | true => exact .inl ⟨rfl, if_pos rfl⟩
  | false =>
    cases hq : s.q with
    | cons item rest => exact .inr (.inl ⟨item, rest, rfl, rfl, by simp⟩)
    | nil =>
      by_cases ht : t = 0
      · exact .inr (.inr (.inl ⟨rfl, rfl, ht, if_pos ht⟩))
      · exact .inr (.inr (.inr ⟨rfl, rfl, ht, if_neg ht⟩))

/-- The three things FLUSH can do (R191). -/
theorem flush_cases (fl frm dst : Byte) (s : State) :
    (flIllegal fl = true ∧ flush fl frm dst s = (s, raise .ill)) ∨
    (flIllegal fl = false ∧ s.dead = true ∧ flush fl frm dst s = (s, raise .dead)) ∨
    (flIllegal fl = false ∧ s.dead = false ∧ flush fl frm dst s =
      ({ s with q := [], rxn := 0, dstate := .awaitFrom,
                expFrom := if flBit0 fl then frm else s.expFrom,
                expTo := if flBit1 fl then dst else s.expTo,
                expSet := (flBit0 fl && flBit1 fl) || s.expSet }, respond .ok [])) := by
  unfold flush clearDecoder
  cases flIllegal fl with
  | true => exact .inl ⟨rfl, if_pos rfl⟩
  | false =>
    cases hd : s.dead with
    | true => exact .inr (.inl ⟨rfl, rfl, by simp⟩)
    | false => exact .inr (.inr ⟨rfl, rfl, by simp⟩)

/-- The two things TX.WRITE can do (R193). -/
theorem txWrite_cases (bytes : List Byte) (s : State) :
    (s.dead = true ∧ txWrite bytes s = (s, raise .dead)) ∨
    (s.dead = false ∧ txWrite bytes s = (emit bytes s, respond .ok [])) := by
  unfold txWrite
  cases s.dead with
  | true => exact .inl ⟨rfl, if_pos rfl⟩
  | false => exact .inr ⟨rfl, by simp⟩

/-- The three things a tick can do (R189). -/
theorem tickTimer_cases (s : State) :
    (s.rdPend = false ∧ tickTimer s = s) ∨
    (s.rdPend = true ∧ s.rdTmr - 1 ≠ 0 ∧ tickTimer s = { s with rdTmr := s.rdTmr - 1 }) ∨
    (s.rdPend = true ∧ s.rdTmr - 1 = 0 ∧
      tickTimer s = completeRead (raise .none) { s with rdTmr := s.rdTmr - 1 }) := by
  unfold tickTimer
  by_cases hp : s.rdPend = true
  · rw [if_pos hp]
    by_cases h : s.rdTmr - 1 = 0
    · exact .inr (.inr ⟨hp, h, if_pos h⟩)
    · exact .inr (.inl ⟨hp, h, if_neg h⟩)
  · exact .inl ⟨by simpa using hp, if_neg hp⟩

end Sys2Proof.Machine
end

