-- ==== Sys2Proof/Laws/PerInstr.lean ====
section
/-! SUPPORT. A statement of every instruction, one lemma per constructor: its encoding begins with its code, and that
code is one of the port that the instruction enters by, so that no two ports share a code (R86, R89, R90). -/

namespace Sys2Proof.Laws

/-- The head of an encoding names the instruction's port. -/
def EncodeHead.Statement (i : Instr) : Prop :=
  (encode i).head? = some i.code ∧ portOfCode i.code = i.port

theorem EncodeHead.crcClr : EncodeHead.Statement .crcClr :=
  ⟨rfl, rfl⟩

theorem EncodeHead.crcUpd (b : Byte) : EncodeHead.Statement (.crcUpd b) :=
  ⟨rfl, rfl⟩

theorem EncodeHead.crcGet : EncodeHead.Statement .crcGet :=
  ⟨rfl, rfl⟩

theorem EncodeHead.crcBuf (bytes : List Byte) : EncodeHead.Statement (.crcBuf bytes) :=
  ⟨rfl, rfl⟩

theorem EncodeHead.packRs (frm dst fl cmd : Byte) (data : List Byte) :
    EncodeHead.Statement (.packRs frm dst fl cmd data) :=
  ⟨rfl, rfl⟩

theorem EncodeHead.packCan (id fl cmd : Byte) (data : List Byte) :
    EncodeHead.Statement (.packCan id fl cmd data) :=
  ⟨rfl, rfl⟩

theorem EncodeHead.unpackRs (exp0 exp1 : Byte) (bytes : List Byte) :
    EncodeHead.Statement (.unpackRs exp0 exp1 bytes) :=
  ⟨rfl, rfl⟩

theorem EncodeHead.unpackCan (exp : Byte) (bytes : List Byte) :
    EncodeHead.Statement (.unpackCan exp bytes) :=
  ⟨rfl, rfl⟩

theorem EncodeHead.qRead (tHi tLo : Byte) : EncodeHead.Statement (.qRead tHi tLo) :=
  ⟨rfl, rfl⟩

theorem EncodeHead.flush (fl frm dst : Byte) : EncodeHead.Statement (.flush fl frm dst) :=
  ⟨rfl, rfl⟩

theorem EncodeHead.txWrite (bytes : List Byte) : EncodeHead.Statement (.txWrite bytes) :=
  ⟨rfl, rfl⟩

theorem EncodeHead.close : EncodeHead.Statement .close :=
  ⟨rfl, rfl⟩

theorem EncodeHead.isErr : EncodeHead.Statement .isErr :=
  ⟨rfl, rfl⟩

theorem EncodeHead.rxChunk (bytes : List Byte) : EncodeHead.Statement (.rxChunk bytes) :=
  ⟨rfl, rfl⟩

theorem EncodeHead.decFeed (b : Byte) : EncodeHead.Statement (.decFeed b) :=
  ⟨rfl, rfl⟩

theorem EncodeHead.ioErr : EncodeHead.Statement .ioErr :=
  ⟨rfl, rfl⟩

theorem EncodeHead.tick : EncodeHead.Statement .tick :=
  ⟨rfl, rfl⟩

theorem EncodeHead.connectTo (targetId : Byte) (auxId : Nat) :
    EncodeHead.Statement (.connectTo targetId auxId) :=
  ⟨rfl, rfl⟩

theorem EncodeHead.send (rw : Bool) (d : Descriptor) (payload : List Byte) :
    EncodeHead.Statement (.send rw d payload) :=
  ⟨rfl, rfl⟩

theorem EncodeHead.pend (rw : Bool) (d : Descriptor) (timeout : Option Word) :
    EncodeHead.Statement (.pend rw d timeout) :=
  ⟨rfl, rfl⟩

theorem EncodeHead.getRange (d : Descriptor) (startId endId : Byte) :
    EncodeHead.Statement (.getRange d startId endId) :=
  ⟨rfl, rfl⟩

theorem EncodeHead.connectDevice : EncodeHead.Statement .connectDevice :=
  ⟨rfl, rfl⟩

end Sys2Proof.Laws
end

