-- ==== Sys2Proof/Tests/Slice0.lean ====
section
/-! SUPPORT. Tests. Expected values are the spec's own: the encodings of spec/30_encoding.md R86, R89, R90, and the
vectors of spec/95_test_vectors.md (their ids stand in the comments). -/

namespace Sys2Proof.Tests

open Sys2Proof.Machine

set_option Elab.async false

/-! ### Well-formedness: each check refuses an ill-formed term -/

theorem test_wf_refuses_long_crcBuf : ¬ (Instr.crcBuf (List.replicate 256 0)).WellFormed := by
  simp only [Instr.WellFormed, payloadOk, List.length_replicate]
  decide

theorem test_wf_refuses_long_txWrite : ¬ (Instr.txWrite (List.replicate 256 0)).WellFormed := by
  simp only [Instr.WellFormed, payloadOk, List.length_replicate]
  decide

theorem test_wf_refuses_long_rxChunk : ¬ (Instr.rxChunk (List.replicate 256 0)).WellFormed := by
  simp only [Instr.WellFormed, payloadOk, List.length_replicate]
  decide

theorem test_wf_refuses_long_packRs : ¬ (Instr.packRs 0 0 0 0 (List.replicate 256 0)).WellFormed := by
  simp only [Instr.WellFormed, payloadOk, List.length_replicate]
  decide

theorem test_wf_refuses_long_packCan : ¬ (Instr.packCan 0 0 0 (List.replicate 256 0)).WellFormed := by
  simp only [Instr.WellFormed, payloadOk, List.length_replicate]
  decide

theorem test_wf_refuses_long_unpackRs : ¬ (Instr.unpackRs 0 0 (List.replicate 256 0)).WellFormed := by
  simp only [Instr.WellFormed, payloadOk, List.length_replicate]
  decide

theorem test_wf_refuses_long_unpackCan : ¬ (Instr.unpackCan 0 (List.replicate 256 0)).WellFormed := by
  simp only [Instr.WellFormed, payloadOk, List.length_replicate]
  decide

/-! ### Decoding: words written out from R86, R89, R90 -/

theorem test_decode_crcClr : decodeCommand [0x01] = .ok .crcClr [] := by decide

theorem test_decode_crcUpd : decodeCommand [0x02, 0x31, 0x03] = .ok (.crcUpd 0x31) [0x03] := by decide

theorem test_decode_crcGet : decodeCommand [0x03] = .ok .crcGet [] := by decide

theorem test_decode_crcBuf : decodeCommand [0x04, 0x02, 0xAA, 0xBB, 0x01] = .ok (.crcBuf [0xAA, 0xBB]) [0x01] := by
  decide

-- PK1
theorem test_decode_packRs : decodeCommand [0x10, 0x0A, 0x01, 0x01, 0x30, 0x04, 0x42, 0x48, 0x00, 0x00] =
    .ok (.packRs 0x0A 0x01 0x01 0x30 [0x42, 0x48, 0x00, 0x00]) [] := by decide

-- PC1
theorem test_decode_packCan : decodeCommand [0x11, 0x01, 0x02, 0x30, 0x01, 0x42] =
    .ok (.packCan 0x01 0x02 0x30 [0x42]) [] := by decide

theorem test_decode_unpackRs : decodeCommand [0x12, 0x01, 0x0A, 0x02, 0x55, 0x56] =
    .ok (.unpackRs 0x01 0x0A [0x55, 0x56]) [] := by decide

theorem test_decode_unpackCan : decodeCommand [0x13, 0x01, 0x02, 0xAA, 0x00] =
    .ok (.unpackCan 0x01 [0xAA, 0x00]) [] := by decide

theorem test_decode_qRead : decodeCommand [0x20, 0x01, 0x64] = .ok (.qRead 0x01 0x64) [] := by decide

theorem test_decode_flush : decodeCommand [0x21, 0x01, 0x02, 0x99] = .ok (.flush 0x01 0x02 0x99) [] := by decide

theorem test_decode_txWrite : decodeCommand [0x22, 0x01, 0x7F] = .ok (.txWrite [0x7F]) [] := by decide

theorem test_decode_close_then_isErr : decodeCommand [0x23, 0x24] = .ok .close [0x24] ∧
    decodeCommand [0x24] = .ok .isErr [] := by decide

theorem test_decode_rx_events : decodeRx [0x30, 0x01, 0xFE] = .ok (.rxChunk [0xFE]) [] ∧
    decodeRx [0x31, 0xFE] = .ok (.decFeed 0xFE) [] ∧ decodeRx [0x32] = .ok .ioErr [] := by decide

theorem test_decode_tick : decodeTick [0x3F] = .ok .tick [] := by decide

theorem test_decode_calls :
    decodeCall { targetId := 1, auxId := 2 } [0x40] = .ok (.connectTo 1 2) [] ∧
    decodeCall { rw := true, payload := [9] } [0x41] =
      .ok (.send true ⟨0, .fixed 0, .fixed 0, .fixed 0, .fixed 0⟩ [9]) [] ∧
    decodeCall { timeout := some 5 } [0x42] =
      .ok (.pend false ⟨0, .fixed 0, .fixed 0, .fixed 0, .fixed 0⟩ (some 5)) [] ∧
    decodeCall { startId := 1, endId := 3 } [0x43] =
      .ok (.getRange ⟨0, .fixed 0, .fixed 0, .fixed 0, .fixed 0⟩ 1 3) [] ∧
    decodeCall {} [0x44] = .ok .connectDevice [] := by decide

-- R92: every code of the other ports is undefined on the command port
theorem test_decode_undefined : decodeCommand [0x00] = .undefinedCode 0x00 [] ∧
    decodeCommand [0x30, 0x01] = .undefinedCode 0x30 [0x01] ∧ decodeCommand [0x40] = .undefinedCode 0x40 [] ∧
    decodeCommand [0xFF] = .undefinedCode 0xFF [] := by decide

theorem test_decode_incomplete : decodeCommand [] = .incomplete ∧ decodeCommand [0x20, 0x00] = .incomplete ∧
    decodeCommand [0x04, 0x02, 0xAA] = .incomplete := by decide

/-! ### Small states and readings of an outcome -/

/-- A block whose expectations are host 0x0A and device 0x01. -/
def live : State := { State.reset with expFrom := 0x01, expTo := 0x0A, expSet := true }

/-- `live` in the terminal condition. -/
def dead : State := { live with dead := true }

/-- `live` with a Q.READ of the command port pending. -/
def pending (tmr : Word) : State := { live with rdPend := true, rdTmr := tmr, respChan := .commandPort }

/-- `live` with a Q.READ of the host's PEND pending. -/
def hostPending (tmr : Word) : State :=
  { live with rdPend := true, rdTmr := tmr, respChan := .client }

/-- `live` after the bytes of a frame up to and without the last, which stand in RXBUF. -/
def atCrc2 : State :=
  { live with rxbuf := [(0, 0x01), (1, 0x0A), (2, 0x01), (3, 0xB0), (4, 0x21)], rxn := 5, dstate := .awaitCrc2 }

/-- The raw path with a queue of at most two items. -/
def raw (q : List (List Byte)) : State :=
  { live with decAttached := false, q := q, cfg := { Config.suggested with qCap := 2 } }

/-- PK2, the shortest RS-form response of the vectors. -/
def pk2 : List Byte := [0x01, 0x0A, 0x01, 0xB0, 0x21, 0xFE]

/-- PC2, its CAN-form. -/
def pc2 : List Byte := [0xAA, 0x00, 0x01, 0x01, 0xB0, 0x6D, 0xFC]

/-- `live` with one item and the template pointed at its sender. -/
def withItem : State := { live with q := [pk2], client := { live.client with targetId := 0x01 } }

/-- `live` with the CAN-form template. -/
def canHost : State := { live with client := { live.client with form := .can, targetId := 0x7F } }

/-- `live` with caller `c` holding the lock between its SEND and its PEND, and caller 0 calling. -/
def paired (c : Nat) : State := { live with client := { live.client with lock := true, pair := true, holder := c } }

/-- `withItem` with a host procedure in progress. -/
def inProc (ctx : Ctx) (stage : Stage) (s : State) : State :=
  { s with client := { s.client with lock := true, proc := some ⟨ctx, stage⟩ } }

/-- `live` with the decoder's registers as given. -/
def decoding (d : DState) (n : BitVec 8) (m : BitVec 7) : State := { live with dstate := d, rxn := n, drem := m }

/-- The bytes of the last response, when there is a next state. -/
def answered (o : Host.Outcome State Fault Refusal) : List Byte :=
  match o with
  | .next t => ((t.resp.getLast?).map fun r => r.reply.bytes).getD []
  | .fault _ | .refused _ => []

/-- A reading of the next state. -/
def after {α : Type} (o : Host.Outcome State Fault Refusal) (f : State → α) : Option α :=
  match o with
  | .next t => some (f t)
  | .fault _ | .refused _ => none

/-- The reason of a refusal. -/
def refusal (o : Host.Outcome State Fault Refusal) : Option Refusal :=
  match o with
  | .refused r => some r
  | .next _ | .fault _ => none

/-- A descriptor of command 0x30 with a 4-byte write request. -/
def d30 : Descriptor := ⟨0x30, .fixed 0, .var, .fixed 4, .fixed 0⟩

/-! ### One step of each instruction -/

-- CK1
theorem test_crcClr : after (exec .crcClr { live with crc := 0x1234 }) State.crc = some 0xFFFF := by
  decide +kernel

-- the step table of 2.1
theorem test_crcUpd : after (exec (.crcUpd 0x01) live) State.crc = some 0x807E := by decide +kernel

-- CK9
theorem test_crcGet : answered (exec .crcGet { live with crc := 0x4B37 }) = [0x00, 0x37, 0x4B] := by
  decide +kernel

-- CK10
theorem test_crcBuf : answered (exec (.crcBuf [0x01, 0x03, 0x00, 0x00, 0x00, 0x0A]) live) = [0x00, 0xC5, 0xCD] ∧
    after (exec (.crcBuf [0x01, 0x03, 0x00, 0x00, 0x00, 0x0A]) live) State.crc = some 0xCDC5 := by
  decide +kernel

-- PK1
theorem test_packRs : answered (exec (.packRs 0x0A 0x01 0x01 0x30 [0x42, 0x48, 0x00, 0x00]) live) =
    [0x00, 0x0A, 0x0A, 0x01, 0x05, 0xB0, 0x42, 0x48, 0x00, 0x00, 0x05, 0x55] := by decide +kernel

-- PK17 and the illegal operands of 2.2: ILL before LEN
theorem test_packRs_refuses :
    answered (exec (.packRs 0x01 0x02 0x00 0x30 (List.replicate 126 0)) live) = [0x01] ∧
      answered (exec (.packRs 0x01 0x02 0x04 0x30 (List.replicate 126 0)) live) = [0x0F] := by decide +kernel

-- PC3
theorem test_packCan : answered (exec (.packCan 0x01 0x03 0x30 []) live) =
    [0x00, 0x07, 0xAA, 0x00, 0x81, 0x01, 0xB0, 0x6C, 0x14] := by decide +kernel

-- 2.2: CAN id bit 7 set; PC9
theorem test_packCan_refuses : answered (exec (.packCan 0x80 0x00 0x30 []) live) = [0x0F] ∧
    answered (exec (.packCan 0x01 0x00 0x30 (List.replicate 8 0)) live) = [0x01] := by decide +kernel

-- UP17
theorem test_unpackRs :
    answered (exec (.unpackRs 0x01 0x0A [0x01, 0x0A, 0x05, 0x30, 0x42, 0x48, 0x00, 0x00, 0xFF, 0xF8]) live) =
      [0x00, 0x01, 0x0A, 0x00, 0x30, 0x04, 0x42, 0x48, 0x00, 0x00] := by decide +kernel

-- UP6, UP8, UP13, UP5
theorem test_unpackRs_order : answered (exec (.unpackRs 0x02 0x0B pk2) live) = [0x03] ∧
    answered (exec (.unpackRs 0x01 0x0A (pk2 ++ [0x00])) live) = [0x01] ∧
    answered (exec (.unpackRs 0x01 0x0A [0x01, 0x0A, 0x01, 0x30, 0x21, 0xFE]) live) = [0x05] ∧
    answered (exec (.unpackRs 0x01 0x0B pk2) live) = [0x04] := by decide +kernel

-- UC10: reserved bits set before the checksum was computed
theorem test_unpackCan :
    answered (exec (.unpackCan 0x01 [0xAA, 0x00, 0x01, 0xF5, 0xB0, 0x42, 0x48, 0x00, 0x00, 0x5D, 0x86]) live) =
      [0x00, 0x01, 0x01, 0x30, 0x04, 0x42, 0x48, 0x00, 0x00] := by decide +kernel

-- UC15, UC7, UC13 and 13 80 00
theorem test_unpackCan_order :
    answered (exec (.unpackCan 0x01 [0xAB, 0x00, 0x02, 0x05, 0xB0, 0x42, 0x48, 0x00, 0x00, 0x49, 0x76]) live) =
      [0x02] ∧
    answered (exec (.unpackCan 0x01 [0xAA, 0x01, 0x01, 0x05, 0xB0, 0x42, 0x48, 0x00, 0x00, 0x49, 0x76]) live) =
      [0x04] ∧
    answered (exec (.unpackCan 0x01 [0xAA, 0x00, 0x01, 0x01, 0xB0, 0x6D, 0x7C]) live) = [0x05] ∧
    answered (exec (.unpackCan 0x80 []) live) = [0x0F] := by decide +kernel

-- QT1, QT4
theorem test_qRead : answered (exec (.qRead 0x00 0x64) { live with q := [pk2] }) = 0x00 :: 0x06 :: pk2 ∧
    after (exec (.qRead 0x00 0x03) live) State.rdTmr = some 3 := by decide +kernel

-- QT3, QT19
theorem test_qRead_poll_and_dead : answered (exec (.qRead 0x00 0x00) live) = [0x0C] ∧
    answered (exec (.qRead 0x00 0x05) dead) = [0x0B] := by decide +kernel

-- QT12
theorem test_flush : after (exec (.flush 0x01 0x02 0x99) { live with q := [pk2] })
    (fun t => (t.expFrom, t.expTo, t.q)) = some (0x02, 0x0A, []) := by decide +kernel

-- R26, R296: two FLUSHes of one bit each are not the FLUSH that DEC.FEED needs; one of both bits is
theorem test_decFeed_needs_a_full_flush :
    refusal (runInstrs [.flush 0x01 0x01 0x00, .flush 0x02 0x00 0x0A, .decFeed 0x01] State.reset) =
      some .expectationsUnwritten ∧
    after (runInstrs [.flush 0x03 0x01 0x0A, .decFeed 0x01] State.reset) State.rxn = some 1 := by
  decide +kernel

-- QT13, QT14
theorem test_flush_keeps_the_read : answered (exec (.flush 0x04 0x00 0x00) live) = [0x0F] ∧
    after (exec (.flush 0x03 0x01 0x0A) (pending 5)) (fun t => (t.rdPend, t.rdTmr)) = some (true, 5) := by
  decide +kernel

-- QT15
theorem test_txWrite : after (exec (.txWrite [0x0A, 0x55, 0x01]) live) State.tx = some [0x0A, 0x55, 0x01] := by
  decide +kernel

-- QT17
theorem test_close : after (exec .close (pending 5)) (fun t => t.resp.map fun r => r.reply.bytes) =
    some [[0x0B], [0x00]] ∧ after (exec .close (pending 5)) State.dead = some true := by decide +kernel

-- QT20
theorem test_isErr : answered (exec .isErr live) = [0x00, 0x00] ∧ answered (exec .isErr dead) = [0x00, 0x01] := by
  decide +kernel

-- QT23, QT9
theorem test_rxChunk_raw :
    after (exec (.rxChunk pc2) (raw [])) State.q = some [pc2] ∧
      after (exec (.rxChunk [3]) (raw [[1], [2]])) State.q = some [[2], [3]] := by decide +kernel

-- the last row of DC1
theorem test_decFeed_emits : after (exec (.decFeed 0xFE) atCrc2) (fun t => (t.dstate, t.rxn, t.q)) =
    some (.awaitFrom, 0, [pk2]) := by decide +kernel

-- the last byte of DC7; DC5
theorem test_decFeed_drops :
    after (exec (.decFeed 0xFF) atCrc2) (fun t => (t.dstate, t.rxn, t.q)) = some (.awaitFrom, 0, []) ∧
      after (exec (.decFeed 0x7F) { live with rxn := 2, dstate := .awaitLen }) (fun t => (t.dstate, t.rxn)) =
        some (.awaitFrom, 0) := by decide +kernel

-- QT21
theorem test_ioErr : after (exec .ioErr (pending 9)) (fun t => (t.dead, t.rdPend, t.rdTmr)) =
    some (true, false, 0) ∧ answered (exec .ioErr (pending 9)) = [0x0B] := by decide +kernel

-- QT5, QT6
theorem test_tick : after (exec .tick (pending 3)) State.rdTmr = some 2 ∧
    answered (exec .tick (pending 1)) = [0x0C] := by decide +kernel

-- 2.6: CONNECT_TO 0x01 issues 21 03 01 0A
theorem test_connectTo : after (exec (.connectTo 0x01 0) State.reset)
    (fun t => (t.expFrom, t.expTo, t.client.results)) =
      some (0x01, 0x0A, [.status 0x40 .ok none]) := by decide +kernel

-- 2.6: SEND's three commands
theorem test_send : after (exec (.send true d30 [0x42, 0x48, 0x00, 0x00])
    { live with client := { live.client with targetId := 0x01 } }) (fun t => (clientTurns 2 t).tx) =
      some [0x0A, 0x01, 0x05, 0xB0, 0x42, 0x48, 0x00, 0x00, 0x05, 0x55] := by decide +kernel

-- HC2
theorem test_pend_rejects_the_command :
    after (exec (.pend true d30 (some 100)) { live with
      q := [[0x01, 0x0A, 0x01, 0xB1, 0xE0, 0x3E]], client := { live.client with targetId := 0x01 } })
      (fun t => (clientTurns 1 t).client.results) =
      some [.status 0x42 .cmd (some (.rs ⟨0x01, 0x0A, false, true, 0x31, []⟩))] := by decide +kernel

-- R230: GET_RANGE's first command is the FLUSH to the wildcard; a reversed range runs as well
theorem test_getRange : after (exec (.getRange d30 0x01 0x03) State.reset) (fun t => (t.expFrom, t.expTo)) =
    some (0x55, 0x0A) ∧
    after (exec (.getRange d30 0x03 0x01) State.reset) (fun t => (t.expFrom, t.draws, t.client.targetId)) =
      some (0x55, 1, 0x55) := by decide +kernel

-- PK8, HC13: the handshake frame
theorem test_connectDevice : after (exec .connectDevice State.reset) (fun t => (clientTurns 3 t).tx) =
    some [0x0A, 0x55, 0x01, 0xFF, 0x52, 0x3C] := by decide +kernel

/-! ### One clock cycle, and the lock -/

/-- The outcome of one cycle. -/
def cycled (is : List Instr) (s : State) : Host.Outcome State Fault Refusal :=
  step { s with sched := [.input], inp := [.cycle is] }

-- R262: "an item in the cycle the timeout would expire: the push completes the read"; "a close in the cycle an item
-- arrives: the pending read gets DEAD"
theorem test_cycle_push_beats_the_timeout :
    after (cycled [.tick, .rxChunk [0x07]] { pending 1 with decAttached := false })
      (fun t => t.resp.map fun r => r.reply.bytes) = some [[0x00, 0x01, 0x07]] ∧
    after (cycled [.rxChunk [0x07], .ioErr] { pending 1 with decAttached := false })
      (fun t => t.resp.map fun r => r.reply.bytes) = some [[0x0B]] := by decide +kernel

-- R262: "a flush and a push in one cycle: the item survives the flush", with CONNECT_TO's FLUSH too; R51: the
-- bytes of a cycle keep their order
theorem test_cycle_flush_precedes_the_push :
    after (cycled [.rxChunk pk2, .flush 0x03 0x01 0x0A] live) State.q = some [pk2] ∧
    after (cycled [.rxChunk pk2, .connectTo 0x01 0] live) State.q = some [pk2] ∧
    after (cycled [.rxChunk (pk2.take 4), .decFeed 0x21, .decFeed 0xFE] live) State.q = some [pk2] := by
  decide +kernel

-- R61: the rest of a chunk goes first; R308: what stands behind a held Q.READ waits
theorem test_cycle_waits_its_turn :
    after (cycled [.decFeed 0x33] { live with rxRest := [0x01, 0x0A] }) (fun t => (t.rxRest, t.rxn, t.inp)) =
      some ([0x0A], 1, [.cycle [.decFeed 0x33]]) ∧
    after (cycled [.crcClr, .tick] { pending 2 with port := [0x20, 0x00, 0x01], crc := 7 })
      (fun t => (t.crc, t.rdTmr, t.port)) = some (7, 1, [0x20, 0x00, 0x01, 0x01]) := by decide +kernel

-- R224: a SEND waits for the pair's PEND, another caller's and the holder's own; the holder may call that PEND
theorem test_lock_spans_the_pair :
    after (exec (.send true d30 [1, 2, 3, 4]) (paired 7)) (fun t => (t.client.waiting.map Prod.fst, t.resp)) =
      some ([0], []) ∧
    after (exec (.send true d30 [1, 2, 3, 4]) (paired 0)) (fun t => (t.client.waiting.map Prod.fst, t.resp)) =
      some ([0], []) ∧
    after (exec (.pend true d30 (some 0)) (paired 0)) (fun t => (t.client.lock, t.client.results)) =
      some (false, [.status 0x42 .timeout none]) := by decide +kernel

/-! ### Witnesses: for each statement that has hypotheses, a state and operands that meet them, clause by clause and
at the ends of the ranges -/

theorem inv_of_parts {s : State} (h : s.cfg.Ok ∧ Memory.wf s.cfg.rxbufSize s.rxbuf ∧ QueueInv s ∧ ReadInv s ∧
    ClientInv s) (hd : DecoderInv s) : StateInv s :=
  ⟨h.1, h.2.1, hd, h.2.2.1, h.2.2.2.1, h.2.2.2.2⟩

theorem inv_live : StateInv live := inv_of_parts (by decide +kernel) rfl

theorem inv_queued : StateInv { live with q := [pk2] } := inv_of_parts (by decide +kernel) rfl

theorem inv_pending : StateInv (pending 1) := inv_of_parts (by decide +kernel) rfl

theorem inv_dead : StateInv dead := inv_of_parts (by decide +kernel) rfl

theorem inv_atCrc2 : StateInv atCrc2 :=
  inv_of_parts (by decide +kernel)
    (show fromHeld atCrc2 ∧ toHeld atCrc2 ∧ lenHeld atCrc2 ∧ atCrc2.rxn.toNat = 4 + rxLen atCrc2 by
      decide +kernel)

theorem witness_DecodeOfEncode : (Instr.packRs 0 0 0 0 (List.replicate 255 0)).WellFormed := by
  simp only [Instr.WellFormed, payloadOk, List.length_replicate]
  decide

theorem witness_EncodeOfDecode :
    decode .command {} [0x04, 0x01, 0xAA, 0x01] = .ok (.crcBuf [0xAA]) [0x01] := by decide

theorem witness_ReservedOpcodeAnswersIll : ∀ code ∈ ([0x00, 0x05, 0x0F, 0x14, 0x1F, 0x25, 0xFF] : List Byte),
    (code.toNat = 0x00 ∨ (0x05 ≤ code.toNat ∧ code.toNat ≤ 0x0F) ∨ (0x14 ≤ code.toNat ∧ code.toNat ≤ 0x1F) ∨
      0x25 ≤ code.toNat) := by decide

theorem witness_ReservedOpcodeAnswersIll_state :
    ({ live with sched := [.port], port := [0x05] } : State).sched = .port :: [] ∧
      ({ live with sched := [.port], port := [0x05] } : State).port = 0x05 :: [] := ⟨rfl, rfl⟩

theorem witness_StepRunsTheDecodedInstruction_port :
    ({ live with sched := [.port], port := [0x01, 0x02] } : State).sched = .port :: [] ∧
      decodeCommand [0x01, 0x02] = .ok .crcClr [0x02] := ⟨rfl, by decide⟩

theorem witness_StepRunsTheDecodedInstruction_input :
    ({ live with sched := [.input], inp := [.msg .rx {} [0x32]] } : State).inp = .msg .rx {} [0x32] :: [] ∧
      Port.rx ≠ .command ∧ live.rxRest = [] ∧ decode .rx {} [0x32] = .ok .ioErr [] :=
  ⟨rfl, by decide, rfl, by decide⟩

theorem witness_StepRunsTheDecodedInstruction_rx :
    ({ live with sched := [.rx], rxRest := [0x01] } : State).rxRest = 0x01 :: [] ∧ live.sched = [] := ⟨rfl, rfl⟩

theorem witness_StepRunsTheDecodedInstruction_default :
    ({ live with port := [0x03] } : State).sched = [] ∧ live.rxRest = [] ∧ live.rdPend = false ∧
      decodeCommand [0x03] = .ok .crcGet [] := ⟨rfl, rfl, rfl, by decide⟩

/-- The turn of the procedure in progress, from the schedule and by the default order, and a machine at rest. -/
theorem witness_StepRunsTheDecodedInstruction_client :
    (inProc .deviceOpen (.connectFlush 0x55 0) { live with sched := [.client] }).sched = .client :: [] ∧
      clientReady (inProc .deviceOpen (.connectFlush 0x55 0) live) = true ∧ live.sched = [] ∧ live.rxRest = [] ∧
      live.port = [] ∧ live.client.proc = none ∧ live.client.waiting = [] := by decide +kernel

/-- A command of which the last byte has not come, and the stimuli of the callers. -/
theorem witness_StepRunsTheDecodedInstruction_stimuli :
    (Instr.crcUpd 0x31).WellFormed ∧ encode (.crcUpd 0x31) = [0x02] ++ [0x31] ∧
      decodeCommand ({ live with sched := [.port], port := [0x02] } : State).port = .incomplete ∧
      ({ live with sched := [.input], inp := [.msg .command {} [0x31]] } : State).inp =
        .msg .command {} [0x31] :: [] ∧
      ({ live with sched := [.input], inp := [.template .can true] } : State).inp = .template .can true :: [] ∧
      ({ live with sched := [.input], inp := [.caller 7] } : State).inp = .caller 7 :: [] :=
  ⟨trivial, rfl, by decide, rfl, rfl, rfl⟩

theorem witness_CrcClrInitialisesCrc : live.cfg = Config.suggested := rfl

theorem witness_CrcGetReadsCrc_low_first : live.cfg.crcLowFirst = true := rfl

theorem witness_CrcGetReadsCrc_high_first :
    ({ live with cfg := { Config.suggested with crcLowFirst := false } } : State).cfg.crcLowFirst = false := rfl

theorem witness_CrcGetReadsCrc_check_value :
    crcFold Config.suggested 0xFFFF [0x31, 0x32, 0x33, 0x34, 0x35, 0x36, 0x37, 0x38, 0x39] = 0x4B37 := by
  decide +kernel

theorem witness_CrcUpdIsBijective : Config.suggested.crcPolyR.getLsbD 15 = true := by decide

theorem witness_CrcIsAffine : ([0x01, 0x02] : List Byte).length = ([0x03, 0x04] : List Byte).length := rfl

theorem witness_OneByteChangeChangesCrc :
    Config.suggested.crcPolyR.getLsbD 15 = true ∧ (0x01 : Byte) ≠ 0x02 := by decide

theorem witness_CrcResidueIsZero :
    Config.suggested.crcXorOut = 0 ∧ Config.suggested.crcLowFirst = true := ⟨rfl, rfl⟩

theorem witness_OnlyChecksumCommandsWriteCrc : Instr.tick ≠ .crcClr ∧ (∀ b, Instr.tick ≠ .crcUpd b) ∧
    (∀ bytes, Instr.tick ≠ .crcBuf bytes) ∧ exec .tick live = .next live := by
  refine ⟨by decide, fun b h => ?_, fun bytes h => ?_, rfl⟩ <;> cases h

theorem witness_OnlyChecksumCommandsWriteCrc_step :
    (∀ w ∈ ([(0, .connectDevice)] : List (Nat × Instr)), w.2.port = .call) ∧
      after (step { live with port := [0x24],
                              client := { live.client with waiting := [(0, .connectDevice)] } }) State.crc =
        some 0xFFFF := by decide +kernel

theorem witness_PackRsAnswersTheFrame_ill : (4 ≤ (0x04 : Byte).toNat ∨ 128 ≤ (0x00 : Byte).toNat) ∧
    (4 ≤ (0x03 : Byte).toNat ∨ 128 ≤ (0x80 : Byte).toNat) := by decide

theorem witness_PackRsAnswersTheFrame_len : (0x03 : Byte).toNat < 4 ∧ (0x7F : Byte).toNat < 128 ∧
    125 < (List.replicate 126 (0 : Byte)).length ∧ (List.replicate 125 (0 : Byte)).length ≤ 125 := by
  decide +kernel

theorem witness_PackCanAnswersTheFrame : (128 ≤ (0x80 : Byte).toNat ∨ 4 ≤ (0 : Byte).toNat) ∧
    (0x7F : Byte).toNat < 128 ∧ (0x03 : Byte).toNat < 4 ∧ 7 < (List.replicate 8 (0 : Byte)).length ∧
    (List.replicate 7 (0 : Byte)).length ≤ 7 := by decide +kernel

/-- The conditions of the statement about UNPACK.RS, on the frame PK2 (length field 1, the least). -/
theorem witness_UnpackRsChecksInOrder : 1 = (pk2.getD 2 0).toNat % 128 ∧
    (6 ≤ pk2.length ∧ 1 ≤ 1 ∧ 1 ≤ 126 ∧ pk2.length = 1 + 5) ∧
    (pk2.getD 0 0 = 0x01 ∨ pk2.getD 0 0 = 0x55 ∨ (0x01 : Byte) = 0x55) ∧
    (pk2.getD 1 0 = 0x0A ∨ pk2.getD 1 0 = 0x55 ∨ (0x0A : Byte) = 0x55) ∧
    crcBytes live.cfg (pk2.take (1 + 3)) = pk2.drop (1 + 3) := by decide +kernel

theorem witness_UnpackRsChecksInOrder_failures :
    ¬ (6 ≤ (pk2.take 5).length) ∧
    ¬ (pk2.getD 0 0 = 0x02 ∨ pk2.getD 0 0 = 0x55 ∨ (0x02 : Byte) = 0x55) ∧
    ¬ (pk2.getD 1 0 = 0x0B ∨ pk2.getD 1 0 = 0x55 ∨ (0x0B : Byte) = 0x55) ∧
    ¬ (crcBytes live.cfg ((pk2.set 5 0xFF).take (1 + 3)) = (pk2.set 5 0xFF).drop (1 + 3)) := by decide +kernel

theorem witness_UnpackCanChecksInOrder : (0x01 : Byte).toNat < 128 ∧ 1 = (pc2.getD 3 0).toNat % 16 ∧
    (7 ≤ pc2.length ∧ 1 ≤ 1 ∧ 1 ≤ 8 ∧ pc2.length = 1 + 6) ∧ pc2.getD 0 0 = 0xAA ∧ pc2.getD 1 0 = 0x00 ∧
    (pc2.getD 2 0).toNat % 128 = (0x01 : Byte).toNat ∧
    crcBytes live.cfg (pc2.take (1 + 4)) = pc2.drop (1 + 4) := by decide +kernel

theorem witness_UnpackCanChecksInOrder_failures : ¬ ((0x80 : Byte).toNat < 128) ∧ ¬ (7 ≤ (pc2.take 6).length) ∧
    (pc2.set 0 0xAB).getD 0 0 ≠ 0xAA ∧ (pc2.set 1 0x01).getD 1 0 ≠ 0x00 ∧
    ¬ ((pc2.getD 2 0).toNat % 128 = (0x02 : Byte).toNat ∨
      (pc2.getD 2 0).toNat % 128 = live.cfg.wildcardCan.toNat ∨
      (0x02 : Byte).toNat = live.cfg.wildcardCan.toNat) ∧
    ¬ (crcBytes live.cfg ((pc2.set 6 0x7C).take (1 + 4)) = (pc2.set 6 0x7C).drop (1 + 4)) := by decide +kernel

theorem witness_RsFramesRoundTrip : (List.replicate 125 (0 : Byte)).length ≤ 125 ∧
    idMatch (0x01 : Byte) 0x55 wildcardRs = true ∧ idMatch (0x55 : Byte) 0x0A wildcardRs = true ∧
    unpackRs Config.suggested pk2 0x01 0x0A = .ok ⟨0x01, 0x0A, false, true, 0x30, []⟩ := by decide +kernel

theorem witness_CanFramesRoundTrip : (List.replicate 7 (0 : Byte)).length ≤ 7 ∧
    unpackCan Config.suggested pc2 0x01 = .ok ⟨0x01, false, true, 0x30, []⟩ ∧ pc2.getD 3 0 &&& 0xF0 = 0 ∧
    unpackCan Config.suggested [0xAA, 0x00, 0x01, 0xF5, 0xB0, 0x42, 0x48, 0x00, 0x00, 0x5D, 0x86] 0x01 =
      .ok ⟨0x01, false, true, 0x30, [0x42, 0x48, 0x00, 0x00]⟩ := by decide +kernel

theorem witness_FlippedBitOfRsFrameIsDetected : Config.suggested.crcPolyR.getLsbD 15 = true ∧
    packRs Config.suggested ⟨0x01, 0x0A, false, true, 0x30, []⟩ = pk2 ∧ 0 < pk2.length ∧ 5 < pk2.length ∧
    pk2.set 5 (pk2.getD 5 0 ^^^ BitVec.twoPow 8 7) = [0x01, 0x0A, 0x01, 0xB0, 0x21, 0x7E] := by decide +kernel

theorem witness_FlippedBitOfCanFrameIsDetected : Config.suggested.crcPolyR.getLsbD 15 = true ∧
    packCan Config.suggested ⟨0x01, false, true, 0x30, []⟩ = pc2 ∧ 0 < pc2.length ∧ 6 < pc2.length ∧
    pc2.set 6 (pc2.getD 6 0 ^^^ BitVec.twoPow 8 7) = [0xAA, 0x00, 0x01, 0x01, 0xB0, 0x6D, 0x7C] := by
  decide +kernel

theorem witness_DecFeedTransitions_ids : dead.dead = true ∧ State.reset.dead = false ∧
    State.reset.expSet = false ∧ live.cfg.Ok ∧ live.dead = false ∧ live.expSet = true ∧
    live.dstate = .awaitFrom ∧
    ((0x01 : Byte) = live.expFrom ∨ (0x01 : Byte) = 0x55 ∨ live.expFrom = 0x55) ∧
    ¬ ((0x02 : Byte) = live.expFrom ∨ (0x02 : Byte) = 0x55 ∨ live.expFrom = 0x55) ∧
    ((0x0A : Byte) = live.expTo ∨ (0x0A : Byte) = 0x55 ∨ live.expTo = 0x55) ∧
    ¬ ((0x0B : Byte) = live.expTo ∨ (0x0B : Byte) = 0x55 ∨ live.expTo = 0x55) := by decide +kernel

theorem witness_DecFeedTransitions_length : live.cfg.decLenCap = 126 ∧ (0x80 : Byte).toNat % 128 = 0 ∧
    126 < (0x7F : Byte).toNat % 128 ∧ 1 ≤ (0x01 : Byte).toNat % 128 ∧ (0x7E : Byte).toNat % 128 ≤ 126 := by
  decide +kernel

theorem witness_DecFeedTransitions_states : (decoding .awaitTo 1 0).dstate = .awaitTo ∧
    (decoding .awaitTo 1 0).expTo = 0x0A ∧ (decoding .awaitLen 2 0).dstate = .awaitLen ∧
    (decoding .awaitLen 2 0).cfg.Ok ∧ (decoding .awaitData 3 2).dstate = .awaitData ∧
    2 ≤ (decoding .awaitData 3 2).drem.toNat ∧ (decoding .awaitData 3 1).drem = 1 ∧
    (decoding .awaitData 128 1).rxn.toNat < (decoding .awaitData 128 1).cfg.rxbufSize ∧
    (decoding .awaitCrc1 129 0).dstate = .awaitCrc1 ∧
    (decoding .awaitCrc1 129 0).rxn.toNat < live.cfg.rxbufSize := by decide +kernel

theorem witness_DecFeedTransitions_end : atCrc2.cfg.Ok ∧ atCrc2.dead = false ∧ atCrc2.expSet = true ∧ atCrc2.dstate = .awaitCrc2 ∧ 5 ≤ atCrc2.rxn.toNat ∧
    atCrc2.rxn.toNat < atCrc2.cfg.rxbufSize ∧
    readBytes (writeByte atCrc2.rxbuf 5 0xFE) 0 6 = pk2 ∧
    crcBytes atCrc2.cfg (pk2.take 4) = pk2.drop 4 ∧
    crcBytes atCrc2.cfg ((pk2.set 5 0xFF).take 4) ≠ (pk2.set 5 0xFF).drop 4 := by decide +kernel

theorem witness_FramesFedArePushedInOrder : StateInv live ∧ live.dead = false ∧ live.expSet = true ∧ live.dstate = .awaitFrom ∧
    unpackRs live.cfg pk2 live.expFrom live.expTo = .ok ⟨0x01, 0x0A, false, true, 0x30, []⟩ ∧
    (pk2.getD 2 0).toNat % 128 ≤ live.cfg.decLenCap := ⟨inv_live, by decide +kernel⟩

theorem witness_GarbageThenFrameIsPushed : StateInv live ∧ live.expFrom ≠ 0x55 ∧
    (∀ g ∈ ([0x00, 0xFF, 0x7E, 0x33] : List Byte), g ≠ live.expFrom ∧ g ≠ 0x55) ∧
    unpackRs live.cfg pk2 live.expFrom live.expTo = .ok ⟨0x01, 0x0A, false, true, 0x30, []⟩ :=
  ⟨inv_live, by decide +kernel⟩

theorem witness_ChunkIsTheFeedOfItsBytes :
    live.dead = false ∧ live.decAttached = true ∧ live.rxRest = [] ∧
      after (rxTurns 1 { live with rxRest := [0x01] }) State.rxn = some 1 ∧
      refusal (rxTurns 1 { State.reset with rxRest := [0x01] }) = some .expectationsUnwritten := by decide +kernel

theorem witness_OnlyDecFeedWritesTheBuffer : (∀ b, Instr.tick ≠ .decFeed b) ∧ exec .tick live = .next live ∧
    StateInv atCrc2 ∧ after (exec (.decFeed 0xFE) atCrc2) State.rxn = some 0 ∧ 4 ≠ atCrc2.rxn.toNat := by
  refine ⟨fun b h => ?_, rfl, inv_atCrc2, by decide +kernel, by decide⟩
  cases h

theorem witness_RxChunkFillsTheQueue : dead.dead = true ∧ live.dead = false ∧ live.decAttached = true ∧ pc2 ≠ [] ∧
    (raw [[1]]).dead = false ∧ (raw [[1]]).decAttached = false ∧ (raw [[1]]).rdPend = false ∧
    (List.replicate 255 (0 : Byte)).length ≤ (raw [[1]]).cfg.itemMax ∧
    (raw [[1]]).q.length < (raw [[1]]).cfg.qCap ∧
    (raw [[1], [2]]).q.length = (raw [[1], [2]]).cfg.qCap := by decide +kernel

theorem witness_RxChunkFillsTheQueue_pending : ({ pending 1 with decAttached := false } : State).dead = false ∧
    ({ pending 1 with decAttached := false } : State).decAttached = false ∧
    ({ pending 1 with decAttached := false } : State).rdPend = true ∧
    ({ pending 1 with decAttached := false } : State).respChan = .commandPort ∧
    ({ hostPending 1 with decAttached := false } : State).rdPend = true ∧
    ({ hostPending 1 with decAttached := false } : State).respChan = .client := by decide +kernel

theorem witness_QReadServesOrPends : (pending 1).rdPend = true ∧ dead.rdPend = false ∧ dead.dead = true ∧
    live.rdPend = false ∧ live.dead = false ∧ live.q = [] ∧ 256 * (0 : Byte).toNat + (0 : Byte).toNat = 0 ∧
    256 * (0 : Byte).toNat + (1 : Byte).toNat ≠ 0 ∧ 256 * (0xFF : Byte).toNat + (0xFF : Byte).toNat = 65535 := by
  decide +kernel

theorem witness_SecondReadIsHeldAtThePort :
    ({ pending 2 with port := [0x20, 0x00, 0x01, 0x24], sched := [.port] } : State).rdPend = true ∧
      ({ pending 2 with port := [0x20, 0x00, 0x01, 0x24], sched := [.port] } : State).port =
        [0x20, 0x00, 0x01] ++ [0x24] := ⟨rfl, rfl⟩

theorem witness_TickCountsDownThePendingRead : live.rdPend = false ∧ 2 ≤ (pending 2).rdTmr.toNat ∧
    (pending 1).rdTmr.toNat = 1 ∧ (pending 1).respChan = .commandPort ∧ (hostPending 1).rdTmr.toNat = 1 ∧
    (hostPending 1).respChan = .client ∧ StateInv (pending 1) ∧ (pending 1).rdPend = true :=
  ⟨rfl, by decide, rfl, rfl, rfl, rfl, inv_pending, rfl⟩

theorem witness_ReadTimesOutAtTheLastTick : 1 = 256 * (0 : Byte).toNat + (1 : Byte).toNat ∧
    live.rdPend = false ∧ live.dead = false ∧ live.q = [] := by decide +kernel

/-- An IS.ERR and a tick that a read of two ticks outlasts, and an instruction of the last clause. -/
theorem witness_ReadTimesOutAtTheLastTick_between :
    PendsFor (pending 2) 1 { pending 1 with resp := (pending 1).resp ++ [⟨0x24, ⟨.ok, [0x00]⟩⟩] } ∧
      ¬ IsPush .crcClr ∧ ¬ IsTerminal .crcClr ∧ Instr.crcClr ≠ .tick :=
  ⟨.tick (.other .isErr .start (by decide) rfl rfl) rfl rfl, by simp [IsPush], by decide, by decide⟩

theorem witness_FlushEmptiesAndRepoints :
    4 ≤ (0x04 : Byte).toNat ∧ (0x03 : Byte).toNat < 4 ∧ dead.dead = true ∧ live.dead = false := by decide

theorem witness_OnlyFlushWritesTheExpectations : ¬ IsFlush .tick ∧ exec .tick live = .next live ∧
    ¬ IsFlush (.send true d30 []) ∧ ¬ IsFlush (.pend true d30 none) := by
  refine ⟨?_, rfl, ?_, ?_⟩ <;> simp [IsFlush]

theorem witness_OnlyFlushWritesTheExpectations_turn (ctx : Ctx) (target : Byte) (aux : Nat) :
    (inProc (.top 0x41) (.sendWrite [0x0A]) live).client.proc ≠ some ⟨ctx, .connectFlush target aux⟩ := by
  simp [inProc]

theorem witness_TxWriteEmitsItsBytes : dead.dead = true ∧ live.dead = false := ⟨rfl, rfl⟩

theorem witness_CloseSetsTheTerminalFlag : live.rdPend = false ∧ (pending 1).rdPend = true ∧
    (pending 1).respChan = .commandPort ∧ (hostPending 1).respChan = .client ∧ after (exec .close live) State.dead = some true := by decide +kernel

theorem witness_IoErrSetsTheTerminalFlag : (hostPending 1).rdPend = true ∧ (hostPending 1).respChan = .client ∧
    after (exec .ioErr (hostPending 1)) (fun t => t.client.inbox) = some (some ⟨.dead, []⟩) := by decide +kernel

theorem witness_IsErrReadsTheTerminalFlag :
    exec .close live = .next (reply 0x23 ⟨.ok, []⟩ (enterTerminal live)) := rfl

theorem witness_DeadIsClearedByResetOnly : StateInv dead ∧ dead.dead = true ∧ step dead = .next dead ∧
    after (step { dead with inp := [.reset true] }) (fun t => (t.dead, t.inp)) = some (false, []) :=
  ⟨inv_dead, rfl, rfl, by decide +kernel⟩

theorem witness_QueueIsFirstInFirstOut :
    after (exec (.qRead 0x00 0x00) { live with q := [pk2, [1]] }) State.q = some [[1]] := by decide +kernel

theorem witness_OutputsAreAppendOnly : after (step { live with port := [0x24] })
    (fun t => t.resp) = some [⟨0x24, ⟨.ok, [0x00]⟩⟩] := by decide +kernel

theorem witness_CycleOrderFollowsTheRanks :
    cycleOrder [.tick, .isErr, .decFeed 1, .rxChunk [2], .connectDevice, .ioErr] =
      [.ioErr, .connectDevice, .decFeed 1, .rxChunk [2], .isErr, .tick] ∧
    IsTerminal .ioErr ∧ IsFlush .connectDevice ∧ IsPush (.rxChunk [2]) ∧ Instr.isErr ≠ .tick := by
  refine ⟨by decide, ?_, ?_, ?_, by decide⟩ <;> simp [IsTerminal, IsFlush, IsPush]

theorem witness_CycleOrderFollowsTheRanks_steps :
    ({ live with sched := [.input], inp := [.cycle [.tick, .close]] } : State).inp = .cycle [.tick, .close] :: [] ∧
      live.port = [] ∧ live.rxRest = [] ∧
      ([.tick, .close].filter fun i : Instr => i.port = .command ∨ i.port = .call) = [.close] ∧
      Instr.close.WellFormed ∧ (∃ i ∈ [Instr.decFeed 1], i.port = .rx) ∧
      ({ live with rxRest := [0x01, 0x0A] } : State).rxRest = 0x01 :: [0x0A] ∧ (pending 2).rdPend = true ∧
      ({ pending 2 with port := [0x20, 0x00, 0x01] } : State).port = [0x20, 0x00, 0x01] ++ [] ∧
      Instr.crcClr.port = .command := by
  refine ⟨rfl, rfl, rfl, by decide, trivial, ⟨_, List.mem_singleton.2 rfl, rfl⟩, rfl, rfl, rfl, rfl⟩

theorem witness_ConfigurationIsFixed : after (step { live with inp := [.reset false] })
    (fun t => (t.decAttached, t.inp)) = some (false, []) := by decide +kernel

theorem witness_ResetHoldsTheStatedValues :
    ({ pending 2 with sched := [.input], inp := [.reset true] } : State).sched = .input :: [] ∧
      ({ pending 2 with sched := [.input], inp := [.reset true] } : State).inp = .reset true :: [] := ⟨rfl, rfl⟩

theorem witness_StepKeepsInv : StateInv { live with q := [pk2] } ∧
    step { live with q := [pk2] } = .next { live with q := [pk2] } := ⟨inv_queued, rfl⟩

theorem witness_InvStepNeverFaults : StateInv atCrc2 := inv_atCrc2

theorem witness_QueuedItemsUnpack : StateInv { live with q := [pk2] } ∧ live.decAttached = true ∧
    live.cfg.decLenCap ≤ 126 ∧ pk2 ∈ [pk2] := ⟨inv_queued, rfl, by decide, by decide⟩

theorem witness_CallWaitsForTheLock : (Instr.getRange d30 1 1).port = .call ∧
    ((paired 7).client.lock = true ∧ (paired 7).client.holder ≠ (paired 7).client.caller) ∧
    ((paired 0).client.lock = true ∧ ∀ rw d timeout, Instr.send true d30 [] ≠ .pend rw d timeout) ∧
    (inProc .deviceOpen (.sendWrite []) live).client.proc ≠ none :=
  ⟨rfl, ⟨rfl, by decide⟩, ⟨rfl, by simp⟩, by decide⟩

/-- A caller that waits for a free lock, the holder whose PEND waits within its pair, and one that may not begin. -/
theorem witness_CallWaitsForTheLock_served :
    ([(3, Instr.connectDevice)] : List (Nat × Instr))[0]? = some (3, .connectDevice) ∧ live.client.proc = none ∧
      live.client.lock = false ∧ ((paired 7).client.lock = true ∧ (paired 7).client.pair = true ∧
        (paired 7).client.holder = 7 ∧
        ∃ rw d timeout, Instr.pend true d30 none = .pend rw d timeout) ∧
      ((paired 7).client.lock = true ∧ (paired 7).client.holder ≠ 3) :=
  ⟨rfl, rfl, rfl, ⟨rfl, rfl, rfl, _, _, _, rfl⟩, rfl, by decide⟩

/-- A caller that finds the lock free, and, for PEND, the holder of an open pair: the hypotheses of every call
below. -/
theorem witness_callers : live.client.proc = none ∧ live.client.lock = false ∧ live.port = [] ∧
    (paired 0).client.proc = none ∧ (paired 0).client.lock = true ∧ (paired 0).client.pair = true ∧
    (paired 0).client.holder = (paired 0).client.caller ∧ (paired 0).port = [] ∧
    dead.client.proc = none ∧ dead.client.lock = false ∧ dead.port = [] ∧
    canHost.client.proc = none ∧ canHost.client.lock = false ∧ canHost.port = [] ∧
    withItem.client.proc = none ∧ withItem.client.lock = false ∧ withItem.port = [] := by decide +kernel

theorem witness_ConnectToRepointsAndFlushes : live.dead = false ∧ dead.dead = true := ⟨rfl, rfl⟩

/-- The largest payload of each variant. -/
theorem witness_SendWritesOneFrame : live.dead = false ∧
    requestLength ⟨0x30, .var, .var, .var, .var⟩ true (List.replicate 125 0) = some 125 ∧
    live.client.form = .rs := by decide +kernel

theorem witness_SendWritesOneFrame_can : canHost.dead = false ∧
    requestLength ⟨0x30, .var, .var, .var, .var⟩ true (List.replicate 7 0) = some 7 ∧
    canHost.client.form = .can ∧ canHost.client.targetId.toNat < 128 := by decide +kernel

theorem witness_SendFailsSoft : dead.dead = true ∧
    live.dead = false ∧ (if true = true then d30.writeReqLen else d30.readReqLen) = .fixed 4 ∧
    ([1, 2, 3] : List Byte).length ≠ 4 := by decide +kernel

/-- The least payloads over the limits, and the least target id that no CAN-form frame carries. -/
theorem witness_SendFailsSoft_length :
    requestLength ⟨0x30, .var, .var, .var, .var⟩ true (List.replicate 126 0) = some 126 ∧
    requestLength ⟨0x30, .fixed 8, .var, .var, .var⟩ false (List.replicate 8 0) = some 8 ∧
    canHost.client.targetId.toNat < 128 ∧ 128 ≤ (0x80 : Byte).toNat := by decide +kernel

theorem witness_SendFailsSoft_write :
    (inProc (.top 0x41) (.sendWrite [0x0A]) dead).client.proc = some ⟨.top 0x41, .sendWrite [0x0A]⟩ ∧
      (inProc (.top 0x41) (.sendWrite [0x0A]) dead).port = [] ∧
      (inProc (.top 0x41) (.sendWrite [0x0A]) dead).dead = true := ⟨rfl, rfl, rfl⟩

theorem witness_PendChecksOneItem : withItem.dead = false ∧ withItem.rdPend = false ∧ withItem.q = pk2 :: [] ∧
    ItemResult withItem true d30 pk2 .ok (some (.rs ⟨0x01, 0x0A, false, true, 0x30, []⟩)) ∧
    ItemResult withItem true d30 [] .len none := by
  refine ⟨rfl, rfl, rfl, .inr ⟨_, ?_, rfl, ?_⟩, .inl ⟨?_, rfl⟩⟩ <;> decide +kernel

/-- The CAN-form: an accepted item, a codec status, and a target id that no CAN-form frame carries. -/
theorem witness_PendChecksOneItem_can :
    ItemResult { canHost with client := { canHost.client with targetId := 0x01 } } true d30 pc2 .ok
      (some (.can ⟨0x01, false, true, 0x30, []⟩)) ∧
    ItemResult canHost true d30 [] .len none ∧
    ItemResult { canHost with client := { canHost.client with targetId := 0x80 } } true d30 pc2 .ill none := by
  refine ⟨.inr (.inr ⟨?_, _, ?_, rfl, ?_⟩), .inr (.inl ⟨?_, ?_, rfl⟩), .inl ⟨?_, rfl, rfl⟩⟩ <;> decide +kernel

/-- An item that comes one tick before the timeout, and the turn that ends a PEND. -/
theorem witness_PendChecksOneItem_waiting : live.dead = false ∧ live.rdPend = false ∧ live.q = [] ∧
    1 < (2 : Word).toNat ∧ ItemResult live true d30 [] .len none ∧ ItemResult withItem true d30 pk2 .ok (some (.rs ⟨0x01, 0x0A, false, true, 0x30, []⟩)) ∧
    (raw []).decAttached = false ∧ pk2 ≠ [] ∧ pk2.length ≤ (raw []).cfg.itemMax ∧
    (inProc (.top 0x42) (.pendUnpack true d30 pk2) withItem).client.proc =
      some ⟨.top 0x42, .pendUnpack true d30 pk2⟩ := by
  refine ⟨rfl, rfl, rfl, by decide, .inl ⟨?_, rfl⟩, .inr ⟨_, ?_, rfl, ?_⟩, ?_⟩ <;> decide +kernel

theorem witness_PendWithoutAnItem : live.rdPend = false ∧ live.dead = false ∧ live.q = [] ∧
    (some (0 : Word)).getD live.cfg.tDefault = 0 ∧ (none : Option Word).getD live.cfg.tDefault ≠ 0 ∧
    dead.dead = true ∧ dead.rdPend = false := by decide +kernel

theorem witness_PendWithoutAnItem_waiting : 0 < (1 : Word).toNat ∧ live.rdPend = false ∧ live.dead = false ∧
    live.q = [] := by decide

theorem witness_PendTimesOut_default : live.cfg.tDefault = (none : Option Word).getD live.cfg.tDefault ∧
    live.cfg.tDefault ≠ 0 := by decide

theorem witness_PendTimesOut : live.rdPend = false ∧ live.dead = false ∧ live.q = [] ∧ (1 : Word) ≠ 0 ∧
    live.client.inbox = none ∧ PendsFor (hostPending 2) 1 (hostPending 1) :=
  ⟨rfl, rfl, rfl, by decide, rfl, .tick .start rfl rfl⟩

theorem witness_GetRangePointsAtTheWildcard : live.client.form = .rs ∧ live.dead = false ∧
    (0x03 : Byte).toNat ≤ (0x03 : Byte).toNat ∧ (0x02 : Byte).toNat < (0x03 : Byte).toNat := by decide +kernel

theorem witness_GetRangePointsAtTheWildcard_can : canHost.client.form = .can ∧
    (0x55 : Byte).toNat = canHost.cfg.wildcardCan.toNat ∧ canHost.dead = false := by decide +kernel

theorem witness_GetRangeReturnsEverySlot :
    slotCount (.rangePend d30 0x01 1 [⟨.ok, []⟩]) = some 2 ∧ slotCount (.rangeClose []) = some 0 ∧
      (∀ d saved done, Ctx.rangePend d30 0x01 1 [⟨.ok, []⟩] ≠ .rangePend d saved 0 done) := by
  refine ⟨rfl, rfl, fun d saved done h => ?_⟩
  cases h

/-- The end of a PEND in each of its stages. -/
theorem witness_PendEnds : PendEnds dead (.pendRead false d30 5) .dead none ∧
    PendEnds live (.pendRead false d30 0) .timeout none ∧
    PendEnds { live with client := { live.client with inbox := some ⟨.none, []⟩ } } (.pendWait false d30) .timeout
      none ∧
    PendEnds withItem (.pendUnpack true d30 pk2) .ok (some (.rs ⟨0x01, 0x0A, false, true, 0x30, []⟩)) ∧
    PendEnds withItem (.pendUnpack true d30 []) .len none := by
  refine ⟨⟨rfl, rfl, rfl, .inl ⟨rfl, rfl⟩⟩, ⟨rfl, rfl, rfl, .inr ⟨rfl, rfl, rfl, rfl⟩⟩, ⟨rfl, .inl ⟨rfl, rfl⟩⟩,
    ⟨rfl, witness_PendChecksOneItem.2.2.2.1⟩, ⟨rfl, witness_PendChecksOneItem.2.2.2.2⟩⟩

/-- The PENDs of a range of one slot, with its item in the queue, and the last CONNECT_TO. -/
theorem witness_GetRangeReturnsEverySlot_slots :
    (inProc (.rangePend d30 0x01 1 []) (.pendRead false d30 10) withItem).client.proc =
      some ⟨.rangePend d30 0x01 [pk2].length [], .pendRead false d30 withItem.cfg.tDefault⟩ ∧
    withItem.q = [pk2] ++ [] ∧ [pk2] ≠ [] ∧ withItem.dead = false ∧ withItem.rdPend = false ∧
    (inProc (.rangeClose []) (.connectFlush 0x01 0) withItem).client.proc =
      some ⟨.rangeClose [], .connectFlush 0x01 0⟩ ∧
    2 ≤ 2 := ⟨rfl, rfl, by decide, rfl, rfl, rfl, Nat.le_refl 2⟩

theorem witness_GetRangeOnDeadBlock : dead.dead = true ∧ (0x01 : Byte).toNat ≤ (0x01 : Byte).toNat ∧
    (0x01 : Byte).toNat < (0x02 : Byte).toNat := by decide +kernel

/-- A fixed request length that the empty payload does not fit, and a SEND of each ending. -/
theorem witness_GetRangeOnDeadBlock_send : live.dead = false ∧
    (⟨0x30, .fixed 1, .var, .var, .var⟩ : Descriptor).readReqLen = .fixed 1 ∧
    (inProc (.rangeSend d30 0x01 2) (.sendWrite []) dead).client.proc =
      some ⟨.rangeSend d30 0x01 2, .sendWrite []⟩ ∧
    SendEnds (inProc (.rangeSend d30 0x01 2) (.sendWrite []) dead) (.sendWrite []) .dead ∧
    SendEnds dead (.sendQuery false d30 []) .dead ∧ SendEnds live (.sendQuery true d30 []) .len ∧
    SendEnds canHost (.sendPack true d30 (List.replicate 8 0)) .len ∧ SendEnds live (.sendWrite []) .ok :=
  ⟨rfl, rfl, rfl, ⟨rfl, .inl ⟨rfl, rfl⟩⟩, ⟨rfl, .inl ⟨rfl, rfl⟩⟩, ⟨rfl, .inr ⟨rfl, rfl, rfl⟩⟩,
    ⟨rfl, .inr (.inl ⟨rfl, by decide +kernel, by decide +kernel, rfl⟩)⟩, ⟨rfl, .inr ⟨rfl, rfl⟩⟩⟩

theorem witness_ConnectDeviceWritesTheHandshake : live.dead = false ∧ live.client.form = .rs ∧
    live.cfg.hsTries ≠ 0 ∧ live.cfg.hsData.length ≤ 7 ∧ canHost.client.form = .can ∧ canHost.dead = false := by
  decide +kernel

theorem witness_HandshakeAttemptDecides : Status.timeout ≠ .ok ∧ Status.timeout ≠ .state ∧
    Status.timeout ≠ .dead ∧ 1 ≤ 1 ∧ 2 ≤ 2 := by decide

theorem witness_HandshakeAttemptDecides_states :
    (inProc (.devicePend 2) (.pendUnpack true d30 pk2) withItem).client.proc =
      some ⟨.devicePend 2, .pendUnpack true d30 pk2⟩ ∧
    (inProc (.deviceSend 1) (.sendWrite [0x0A]) dead).client.proc = some ⟨.deviceSend 1, .sendWrite [0x0A]⟩ ∧
    (inProc (.deviceSend 1) (.sendPack true d30 (List.replicate 126 0)) live).client.proc =
      some ⟨.deviceSend 1, .sendPack true d30 (List.replicate 126 0)⟩ ∧
    SendEnds (inProc (.deviceSend 1) (.sendPack true d30 (List.replicate 126 0)) live)
      (.sendPack true d30 (List.replicate 126 0)) .len ∧
    (inProc (.top 0x42) (.pendWait true d30) live).client.proc = some ⟨.top 0x42, .pendWait true d30⟩ :=
  ⟨rfl, rfl, rfl, ⟨rfl, .inl ⟨rfl, by decide +kernel, rfl⟩⟩, rfl⟩

end Sys2Proof.Tests
end

section
/-! SUPPORT. What a step of the machine is, said once: which turn is taken, and of which elementary updates a step is
made. A relation between states in which every elementary update stands holds of every step but the one that takes the
reset input. -/

namespace Sys2Proof.Machine

/-! ### The turn taken -/

theorem step_of_sched {s : State} {t : Turn} {ts : List Turn} (h : s.sched = t :: ts) :
    step s = turn t { s with sched := ts } := by
  simp only [step, h]

theorem step_of_no_sched {s : State} (h : s.sched = []) : step s = turn (defaultTurn s) s := by
  simp only [step, h]

theorem defaultTurn_of_chunk {s : State} {b : Byte} {bs : List Byte} (h : s.rxRest = b :: bs) :
    defaultTurn s = .rx := by
  simp [defaultTurn, h]

theorem defaultTurn_of_port {s : State} (hrx : s.rxRest = []) (hport : portReady s = true) :
    defaultTurn s = .port := by
  simp [defaultTurn, hrx, hport]

theorem defaultTurn_of_client {s : State} (hrx : s.rxRest = []) (hport : portReady s = false)
    (hclient : clientReady s = true) : defaultTurn s = .client := by
  simp [defaultTurn, hrx, hport, hclient]

theorem defaultTurn_of_rest {s : State} (hrx : s.rxRest = []) (hport : portReady s = false)
    (hclient : clientReady s = false) (hwait : s.client.waiting = []) : defaultTurn s = .input := by
  simp [defaultTurn, hrx, hport, hclient, hwait]

theorem portReady_of_no_bytes {s : State} (h : s.port = []) : portReady s = false := by
  simp [portReady, fetchPort, decodeCommand, h]

/-- A whole command at the head of the port moves, a Q.READ too when no read is pending (R186). -/
theorem portReady_of_command {s : State} {i : Instr} {rest : List Byte} (h : decodeCommand s.port = .ok i rest)
    (hp : s.rdPend = false) : portReady s = true := by
  unfold portReady fetchPort
  rw [h]
  cases i <;> simp [hp]

theorem clientReady_of_no_proc {s : State} (h : s.client.proc = none) : clientReady s = false := by
  simp [clientReady, h]

/-! ### What a turn does -/

theorem portTurn_of_command {s : State} {i : Instr} {rest : List Byte} (h : decodeCommand s.port = .ok i rest) :
    portTurn s = exec i { s with port := rest } := by
  simp only [portTurn, fetchPort, h]

theorem portTurn_of_incomplete {s : State} (h : decodeCommand s.port = .incomplete) : portTurn s = .next s := by
  simp only [portTurn, fetchPort, h]

theorem rxTurn_of_chunk {s : State} {b : Byte} {bs : List Byte} (h : s.rxRest = b :: bs) :
    rxTurn s = exec (.decFeed b) { s with rxRest := bs } := by
  simp only [rxTurn, h]

theorem afterMsg_eq (p : Port) (a : CallArgs) (left : List Byte) (rest : List Stim) :
    afterMsg p a left rest = if left = [] then rest else .msg p a left :: rest := by
  cases left <;> simp [afterMsg]

theorem inputTurn_of_command_bytes {s : State} {a : CallArgs} {bytes : List Byte} {more : List Stim}
    (h : s.inp = .msg .command a bytes :: more) :
    inputTurn s = .next { s with inp := more, port := s.port ++ bytes } := by
  simp only [inputTurn, h]

/-- An event or a call is executed; an event of the RX agent only when no chunk is in delivery (log 6). -/
theorem inputTurn_of_event {s : State} {p : Port} {a : CallArgs} {bytes left : List Byte} {more : List Stim}
    {i : Instr} (h : s.inp = .msg p a bytes :: more) (hp : p ≠ .command) (hrx : p = .rx → s.rxRest = [])
    (hd : decode p a bytes = .ok i left) :
    inputTurn s = exec i { s with inp := if left = [] then more else .msg p a left :: more } := by
  rw [← afterMsg_eq]
  cases p with
  | command => exact absurd rfl hp
  | rx => simp [inputTurn, h, hd, hrx rfl]
  | tick | call => simp [inputTurn, h, hd]

theorem inputTurn_of_template {s : State} {form : Form} {tstate : Bool} {more : List Stim}
    (h : s.inp = .template form tstate :: more) :
    inputTurn s = .next { s with inp := more, client := { s.client with form := form, tstate := tstate } } := by
  simp only [inputTurn, h]

theorem inputTurn_of_caller {s : State} {k : Nat} {more : List Stim} (h : s.inp = .caller k :: more) :
    inputTurn s = .next { s with inp := more, client := { s.client with caller := k } } := by
  simp only [inputTurn, h]

end Sys2Proof.Machine
end

section
/-! SUPPORT. A decoder reads from the left: bytes that come later do not change what it has already answered, and a
command of which bytes are missing has no answer yet (R85). -/

namespace Sys2Proof

/-- The same answer with `back` behind the bytes that are left. -/
def Decoded.extend (back : List Byte) : Decoded → Decoded
  | .ok i rest => .ok i (rest ++ back)
  | .undefinedCode code rest => .undefinedCode code (rest ++ back)
  | .incomplete => .incomplete

/-- What the decoder `f` answers, it answers again when more bytes follow, and leaves those. -/
def ReadsFromLeft (f : List Byte → Decoded) : Prop :=
  ∀ bytes back : List Byte, f bytes ≠ .incomplete → f (bytes ++ back) = (f bytes).extend back

theorem readsFromLeft_ok (i : Instr) : ReadsFromLeft (.ok i) := fun _ _ _ => rfl

theorem readsFromLeft_undefinedCode (code : Byte) : ReadsFromLeft (.undefinedCode code) := fun _ _ _ => rfl

theorem readsFromLeft_takeByte {next : Byte → List Byte → Decoded} (h : ∀ b, ReadsFromLeft (next b)) :
    ReadsFromLeft (takeByte · next) := by
  intro bytes back hne
  cases bytes with
  | nil => exact absurd rfl hne
  | cons b r => exact h b r back hne

theorem splitPayload_append {n : Byte} {r payload rest : List Byte} (back : List Byte)
    (h : splitPayload n r = some (payload, rest)) : splitPayload n (r ++ back) = some (payload, rest ++ back) := by
  unfold splitPayload at h ⊢
  split at h
  · rename_i hn
    cases h
    rw [if_pos (by rw [List.length_append]; omega), List.take_append_of_le_length hn,
      List.drop_append_of_le_length hn]
  · cases h

theorem readsFromLeft_takePayload (mk : List Byte → Instr) : ReadsFromLeft (takePayload · mk) := by
  refine readsFromLeft_takeByte fun n r back hne => ?_
  cases hs : splitPayload n r with
  | none => exact absurd (by simp only [hs]) hne
  | some pr => simp only [splitPayload_append back hs, Decoded.extend]

theorem readsFromLeft_decodeOperands (op : Byte) : ReadsFromLeft (decodeOperands op) := by
  unfold decodeOperands
  split
  case h_1 | h_3 | h_12 | h_13 => exact readsFromLeft_ok _
  case h_2 => exact readsFromLeft_takeByte fun _ => readsFromLeft_ok _
  case h_4 | h_11 => exact readsFromLeft_takePayload _
  case h_5 =>
    exact readsFromLeft_takeByte fun _ => readsFromLeft_takeByte fun _ => readsFromLeft_takeByte fun _ =>
      readsFromLeft_takeByte fun _ => readsFromLeft_takePayload _
  case h_6 =>
    exact readsFromLeft_takeByte fun _ => readsFromLeft_takeByte fun _ => readsFromLeft_takeByte fun _ =>
      readsFromLeft_takePayload _
  case h_7 => exact readsFromLeft_takeByte fun _ => readsFromLeft_takeByte fun _ => readsFromLeft_takePayload _
  case h_8 => exact readsFromLeft_takeByte fun _ => readsFromLeft_takePayload _
  case h_9 => exact readsFromLeft_takeByte fun _ => readsFromLeft_takeByte fun _ => readsFromLeft_ok _
  case h_10 =>
    exact readsFromLeft_takeByte fun _ => readsFromLeft_takeByte fun _ => readsFromLeft_takeByte fun _ =>
      readsFromLeft_ok _
  case h_14 => exact readsFromLeft_undefinedCode _

theorem readsFromLeft_decodeCommand : ReadsFromLeft decodeCommand :=
  readsFromLeft_takeByte readsFromLeft_decodeOperands

/-- Every well-formed command decodes from its encoding, whatever follows it (R85, R86). -/
theorem decodeCommand_encode {i : Instr} (hw : i.WellFormed) (hp : i.port = .command) (rest : List Byte) :
    decodeCommand (encode i ++ rest) = .ok i rest := by
  cases i with
  | crcClr | crcUpd | crcGet | qRead | flush | close | isErr => rfl
  | crcBuf bytes | txWrite bytes | unpackRs _ _ bytes | unpackCan _ bytes | packRs _ _ _ _ bytes
  | packCan _ _ _ bytes => exact takePayload_countByte bytes rest _ hw
  | rxChunk | decFeed | ioErr | tick | connectTo | send | pend | getRange | connectDevice => cases hp

/-- A command of which the last bytes have not come is not decoded (R85): were it decoded, the missing bytes would be
left over by the whole command. -/
theorem decodeCommand_of_missing_bytes {i : Instr} {front back : List Byte} (hw : i.WellFormed) (hp : i.port = .command)
    (he : encode i = front ++ back) (hb : back ≠ []) : decodeCommand front = .incomplete := by
  by_contra hne
  have hwhole : decodeCommand (front ++ back) = .ok i [] := by
    simpa [he] using decodeCommand_encode hw hp []
  rw [readsFromLeft_decodeCommand front back hne] at hwhole
  cases hd : decodeCommand front with
  | ok j rest => simp [hd, Decoded.extend, hb] at hwhole
  | undefinedCode code rest => simp [hd, Decoded.extend] at hwhole
  | incomplete => exact hne hd

end Sys2Proof
end

section
namespace Sys2Proof.Machine

/-- Settles O5: every clause is the turn that the schedule, or the default order, gives, and what that turn does. -/
theorem stepRunsTheDecodedInstruction : Obligations.StepRunsTheDecodedInstruction := by
  refine ⟨?port, ?event, ?rx, ?chunkFirst, ?portNext, ?client, ?bytes, ?partCommand, ?portWaits, ?template, ?caller,
    ?clientNext, ?inputLast⟩
  case port =>
    intro s ts i rest hs hd
    rw [step_of_sched hs]
    exact portTurn_of_command hd
  case event =>
    intro s ts p a bytes left more i hs hi hp hrx hd
    rw [step_of_sched hs]
    exact inputTurn_of_event hi hp hrx hd
  case rx =>
    intro s ts b bs hs hr
    rw [step_of_sched hs]
    exact rxTurn_of_chunk hr
  case chunkFirst =>
    intro s b bs hs hr
    rw [step_of_no_sched hs, defaultTurn_of_chunk hr]
    exact rxTurn_of_chunk hr
  case portNext =>
    intro s i rest hs hr hp hd
    rw [step_of_no_sched hs, defaultTurn_of_port hr (portReady_of_command hd hp)]
    exact portTurn_of_command hd
  case client => exact fun s ts hs => step_of_sched hs
  case bytes =>
    intro s ts a bytes more hs hi
    rw [step_of_sched hs]
    exact inputTurn_of_command_bytes hi
  case partCommand => exact fun i front back hw hp he hb => decodeCommand_of_missing_bytes hw hp he hb
  case portWaits =>
    intro s ts hs hd
    rw [step_of_sched hs]
    exact portTurn_of_incomplete hd
  case template =>
    intro s ts form tstate more hs hi
    rw [step_of_sched hs]
    exact inputTurn_of_template hi
  case caller =>
    intro s ts k more hs hi
    rw [step_of_sched hs]
    exact inputTurn_of_caller hi
  case clientNext =>
    intro s hs hr hp hc
    rw [step_of_no_sched hs, defaultTurn_of_client hr (portReady_of_no_bytes hp) hc]
    rfl
  case inputLast =>
    intro s hs hr hp hc hw
    rw [step_of_no_sched hs, defaultTurn_of_rest hr (portReady_of_no_bytes hp) (clientReady_of_no_proc hc) hw,
      step_of_sched (s := { s with sched := [.input] }) rfl, ← hs]

end Sys2Proof.Machine
end

section
/-! SUPPORT. The elementary updates of a step. Each agent's step is a chain of them, so that a reflexive and transitive
relation in which each of them stands holds from the state before the step to the state after it. -/

namespace Sys2Proof.Machine

/-- Every elementary update of the host's procedures stands in `R`: a response, a write of the host's own fields, and
the state change of a FLUSH, a TX.WRITE and a Q.READ (R223, R225, R227). -/
structure HostUpdates (R : State → State → Prop) : Prop where
  refl : ∀ s, R s s
  trans : ∀ {s t u}, R s t → R t u → R s u
  reply : ∀ code r s, R s (reply code r s)
  client : ∀ c s, R s { s with client := c }
  flush : ∀ fl frm dst s, R s (flush fl frm dst s).1
  txWrite : ∀ bytes s, R s (txWrite bytes s).1
  qRead : ∀ who t s, R s (qRead who t s).1

/-- Every elementary update of a step but the reset stands in `R`. -/
structure StepUpdates (R : State → State → Prop) : Prop extends HostUpdates R where
  crc : ∀ c s, R s { s with crc := c }
  decoder : ∀ m n d st s, R s { s with rxbuf := m, rxn := n, drem := d, dstate := st }
  qPush : ∀ item s, R s (qPush item s)
  tickTimer : ∀ s, R s (tickTimer s)
  enterTerminal : ∀ s, R s (enterTerminal s)
  draws : ∀ n s, R s { s with draws := n }
  agents : ∀ sched inp port rxRest s,
    R s { s with sched := sched, inp := inp, port := port, rxRest := rxRest }

section
variable {R : State → State → Prop}

/-! ### The host's procedures -/

theorem HostUpdates.setProc (h : HostUpdates R) (ctx : Ctx) (stage : Stage) (s : State) : R s (setProc ctx stage s) :=
  h.client _ s

theorem HostUpdates.finishCall (h : HostUpdates R) (r : CallResult) (s : State) : R s (finishCall r s) :=
  h.client _ s

theorem HostUpdates.nextSlot (h : HostUpdates R) (d : Descriptor) (saved : Byte) (left : Nat) (done : List Slot)
    (s : State) : R s (nextSlot d saved left done s) := by
  unfold Machine.nextSlot closeRange
  split <;> exact h.setProc _ _ s

theorem HostUpdates.nextAttempt (h : HostUpdates R) (left : Nat) (s : State) : R s (nextAttempt left s) := by
  unfold Machine.nextAttempt
  split
  · exact h.finishCall _ s
  · exact h.setProc _ _ s

/-- Whatever follows the end of a CONNECT_TO, SEND or PEND writes the host's own fields only. -/
theorem HostUpdates.clientReturn (h : HostUpdates R) (ctx : Ctx) (status : Status) (frame : Option Frame)
    (s : State) : R s (clientReturn ctx status frame s) := by
  cases ctx with
  | top | rangeClose => exact h.finishCall _ s
  | rangeOpen => exact h.setProc _ _ s
  | rangePend => exact h.nextSlot _ _ _ _ s
  | deviceOpen => exact h.nextAttempt _ s
  | rangeSend =>
    unfold Machine.clientReturn closeRange
    dsimp only
    split
    · exact h.nextSlot _ _ _ _ s
    · exact h.setProc _ _ s
  | deviceSend =>
    unfold Machine.clientReturn
    dsimp only
    split
    · exact h.finishCall _ s
    · exact h.setProc _ _ s
  | devicePend =>
    unfold Machine.clientReturn
    dsimp only
    split
    · exact h.finishCall _ s
    split
    · exact h.finishCall _ s
    · exact h.nextAttempt _ s

theorem HostUpdates.issueConnect (h : HostUpdates R) (ctx : Ctx) (targetId : Byte) (auxId : Nat) (s : State) :
    R s (issueConnect ctx targetId auxId s) :=
  h.trans (h.trans (h.client _ s) (h.flush _ _ _ _)) (h.trans (h.reply _ _ _) (h.clientReturn _ _ _ _))

theorem HostUpdates.issueQuery (h : HostUpdates R) (ctx : Ctx) (rw : Bool) (d : Descriptor) (payload : List Byte)
    (s : State) : R s (issueQuery ctx rw d payload s) := by
  unfold Machine.issueQuery
  refine h.trans (h.reply 0x24 (isErrReply s) s) ?_
  split
  · exact h.clientReturn _ _ _ _
  split
  · exact h.clientReturn _ _ _ _
  · exact h.setProc _ _ _

theorem HostUpdates.issuePack (h : HostUpdates R) (ctx : Ctx) (rw : Bool) (d : Descriptor) (data : List Byte)
    (s : State) : R s (issuePack ctx rw d data s) := by
  unfold Machine.issuePack
  dsimp only
  refine h.trans (h.reply (packCommand rw d data s).1 (packCommand rw d data s).2 s) ?_
  split
  · exact h.setProc _ _ _
  · exact h.clientReturn _ _ _ _

theorem HostUpdates.issueWrite (h : HostUpdates R) (ctx : Ctx) (frame : List Byte) (s : State) :
    R s (issueWrite ctx frame s) :=
  h.trans (h.txWrite _ s) (h.trans (h.reply _ _ _) (h.clientReturn _ _ _ _))

theorem HostUpdates.afterRead (h : HostUpdates R) (ctx : Ctx) (rw : Bool) (d : Descriptor) (r : Reply) (s : State) :
    R s (afterRead ctx rw d r s) := by
  unfold Machine.afterRead
  split
  · exact h.setProc _ _ s
  split <;> exact h.clientReturn _ _ _ s

theorem HostUpdates.issueRead (h : HostUpdates R) (ctx : Ctx) (rw : Bool) (d : Descriptor) (timeout : Word)
    (s : State) : R s (issueRead ctx rw d timeout s) := by
  have hread : R s (Machine.qRead .client timeout s).1 := h.qRead _ _ s
  unfold Machine.issueRead
  split
  · rename_i t r heq
    rw [heq] at hread
    exact h.trans hread (h.trans (h.reply _ _ t) (h.afterRead _ _ _ _ _))
  · rename_i t heq
    rw [heq] at hread
    exact h.trans hread (h.setProc _ _ t)

theorem HostUpdates.issueUnpack (h : HostUpdates R) (ctx : Ctx) (rw : Bool) (d : Descriptor) (item : List Byte)
    (s : State) : R s (issueUnpack ctx rw d item s) := by
  unfold Machine.issueUnpack
  split
  · refine h.trans (h.reply 0x12 (unpackRsReply s.cfg s.client.targetId s.cfg.hostId item) s) ?_
    split <;> exact h.clientReturn _ _ _ _
  · refine h.trans (h.reply 0x13 (unpackCanReply s.cfg s.client.targetId item) s) ?_
    split <;> exact h.clientReturn _ _ _ _

theorem HostUpdates.issueStage (h : HostUpdates R) (p : Proc) (s : State) : R s (issueStage p s) := by
  unfold Machine.issueStage
  split
  · exact h.issueConnect _ _ _ s
  · exact h.issueQuery _ _ _ _ s
  · exact h.issuePack _ _ _ _ s
  · exact h.issueWrite _ _ s
  · exact h.issueRead _ _ _ _ s
  · split
    · exact h.refl s
    · exact h.trans (h.client _ s) (h.afterRead _ _ _ _ _)
  · exact h.issueUnpack _ _ _ _ s

/-- The host agent's turn is a chain of the host's elementary updates. -/
theorem HostUpdates.clientTurn (h : HostUpdates R) (s : State) : R s (clientTurn s) := by
  unfold Machine.clientTurn
  split
  · exact h.refl s
  split
  · exact h.issueStage _ s
  · exact h.refl s

theorem HostUpdates.beginCall (h : HostUpdates R) (i : Instr) (p : Proc) (s : State) : R s (beginCall i p s) := by
  obtain ⟨-, heq⟩ | ⟨-, heq⟩ := beginCall_cases i p s <;> rw [heq]
  · exact h.trans (h.client _ s) (h.clientTurn _)
  · exact h.client _ s

/-! ### The decoder -/

/-- The two things the end of a frame can do (R157). -/
theorem finishFrame_cases (s : State) :
    finishFrame s = clearDecoder s ∨ ∃ item, finishFrame s = qPush item (clearDecoder s) := by
  unfold finishFrame
  dsimp only
  split
  · exact .inr ⟨_, rfl⟩
  · exact .inl rfl

/-- A byte fed to the decoder writes the decoder's four fields, and may then end the frame (R151). -/
theorem decStep_eq_next {b : Byte} {s t : State} (h : decStep b s = .next t) :
    ∃ m n d st, t = { s with rxbuf := m, rxn := n, drem := d, dstate := st } ∨
      t = finishFrame { s with rxbuf := m, rxn := n, drem := d, dstate := st } := by
  unfold decStep at h
  split at h
  case h_1 | h_2 =>
    split at h <;> cases h <;> exact ⟨_, _, _, _, .inl rfl⟩
  case h_3 =>
    dsimp only at h
    split at h <;> cases h <;> exact ⟨_, _, _, _, .inl rfl⟩
  case h_4 | h_5 =>
    split at h
    · cases h
    · rename_i hst
      obtain ⟨-, rfl⟩ := storeRx_eq_some hst
      cases h
      exact ⟨_, _, _, _, .inl rfl⟩
  case h_6 =>
    split at h
    · cases h
    · rename_i hst
      obtain ⟨-, rfl⟩ := storeRx_eq_some hst
      cases h
      exact ⟨_, _, _, _, .inr rfl⟩

theorem StepUpdates.finishFrame (h : StepUpdates R) (s : State) : R s (finishFrame s) := by
  have hclear : R s (clearDecoder s) := h.decoder _ _ _ _ s
  obtain heq | ⟨item, heq⟩ := finishFrame_cases s <;> rw [heq]
  · exact hclear
  · exact h.trans hclear (h.qPush item _)

theorem StepUpdates.decStep (h : StepUpdates R) {b : Byte} {s t : State} (hs : decStep b s = .next t) : R s t := by
  obtain ⟨m, n, d, st, rfl | rfl⟩ := decStep_eq_next hs
  · exact h.decoder m n d st s
  · exact h.trans (h.decoder m n d st s) (h.finishFrame _)

/-! ### The instructions -/

theorem StepUpdates.execRxChunk (h : StepUpdates R) {bytes : List Byte} {s t : State}
    (hs : execRxChunk bytes s = .next t) : R s t := by
  unfold Machine.execRxChunk at hs
  split at hs
  · cases hs
    exact h.refl s
  split at hs
  · cases hs
    exact h.agents _ _ _ _ s
  split at hs
  · cases hs
    exact h.qPush _ s
  · cases hs

theorem StepUpdates.execDecFeed (h : StepUpdates R) {b : Byte} {s t : State}
    (hs : execDecFeed b s = .next t) : R s t := by
  unfold Machine.execDecFeed at hs
  split at hs
  · cases hs
    exact h.refl s
  split at hs
  · exact h.decStep hs
  · cases hs

theorem StepUpdates.execQRead (h : StepUpdates R) {tHi tLo : Byte} {s t : State}
    (hs : execQRead tHi tLo s = .next t) : R s t := by
  have hread := h.qRead .commandPort (timeoutOf tHi tLo) s
  unfold Machine.execQRead at hs
  split at hs
  · cases hs
    exact h.agents _ _ _ _ s
  split at hs
  · rename_i heq
    rw [heq] at hread
    cases hs
    exact h.trans hread (h.reply _ _ _)
  · rename_i heq
    rw [heq] at hread
    cases hs
    exact hread

theorem StepUpdates.drawSlots (h : StepUpdates R) (d : Descriptor) (a b : Byte) (s : State) :
    R s (drawSlots d a b s) := by
  obtain heq | heq := drawSlots_cases d a b s <;> rw [heq]
  · exact h.draws _ s
  · exact h.refl s

/-- An instruction is a chain of elementary updates. -/
theorem StepUpdates.exec (h : StepUpdates R) {i : Instr} {s t : State} (hs : exec i s = .next t) : R s t := by
  cases i with
  | qRead => exact h.execQRead hs
  | rxChunk => exact h.execRxChunk hs
  | decFeed => exact h.execDecFeed hs
  | crcClr | crcUpd | crcBuf =>
    cases hs
    exact h.trans (h.crc _ s) (h.reply _ _ _)
  | crcGet | packRs | packCan | unpackRs | unpackCan | isErr =>
    cases hs
    exact h.reply _ _ s
  | flush =>
    cases hs
    exact h.trans (h.flush _ _ _ s) (h.reply _ _ _)
  | txWrite =>
    cases hs
    exact h.trans (h.txWrite _ s) (h.reply _ _ _)
  | close =>
    cases hs
    exact h.trans (h.enterTerminal s) (h.reply _ _ _)
  | ioErr =>
    cases hs
    exact h.enterTerminal s
  | tick =>
    cases hs
    exact h.tickTimer s
  | connectTo | send | pend | connectDevice =>
    cases hs
    exact h.beginCall _ _ s
  | getRange =>
    cases hs
    exact h.trans (h.drawSlots _ _ _ s) (h.beginCall _ _ _)

theorem StepUpdates.runInstrs (h : StepUpdates R) {is : List Instr} {s t : State}
    (hs : runInstrs is s = .next t) : R s t := by
  induction is generalizing s with
  | nil =>
    cases hs
    exact h.refl t
  | cons i is ih =>
    unfold Machine.runInstrs at hs
    split at hs
    · rename_i hi
      exact h.trans (h.exec hi) (ih hs)
    · cases hs
    · cases hs

/-! ### The turns -/

theorem StepUpdates.portTurn (h : StepUpdates R) {s t : State} (hs : portTurn s = .next t) : R s t := by
  unfold Machine.portTurn at hs
  split at hs
  · exact h.trans (h.agents _ _ _ _ s) (h.exec hs)
  · cases hs
    exact h.trans (h.agents _ _ _ _ s) (h.reply _ _ _)
  · cases hs
    exact h.refl s

theorem StepUpdates.rxTurn (h : StepUpdates R) {s t : State} (hs : rxTurn s = .next t) : R s t := by
  unfold Machine.rxTurn at hs
  split at hs
  · cases hs
    exact h.refl s
  · exact h.trans (h.agents _ _ _ _ s) (h.exec hs)

theorem StepUpdates.callerTurn (h : StepUpdates R) {k : Nat} {s t : State} (hs : callerTurn k s = .next t) :
    R s t := by
  obtain rfl | ⟨c, i, u, -, -, hu, rfl⟩ := callerTurn_eq_next hs
  · exact h.refl t
  · exact h.trans (h.trans (h.client _ s) (h.exec hu)) (h.client _ u)

theorem StepUpdates.cycleTurn (h : StepUpdates R) {is : List Instr} {s t : State}
    (hs : cycleTurn is s = .next t) : R s t := by
  unfold Machine.cycleTurn at hs
  dsimp only at hs
  split at hs
  · exact h.trans (h.agents _ _ _ _ s) (h.runInstrs hs)
  split at hs
  · rename_i hcalls
    have hfirst := h.trans (h.agents _ _ _ _ s) (h.runInstrs hcalls)
    exact h.trans hfirst (h.trans (h.agents _ _ _ _ _) (h.runInstrs hs))
  · cases hs
  · cases hs

/-- The next stimulus is the reset input, or a chain of elementary updates. -/
theorem StepUpdates.inputTurn (h : StepUpdates R) {s t : State} (hs : inputTurn s = .next t) :
    R s t ∨ ∃ d more, s.inp = .reset d :: more ∧ t = applyReset d { s with inp := more } := by
  unfold Machine.inputTurn at hs
  split at hs
  case h_1 =>
    cases hs
    exact .inl (h.refl s)
  case h_2 d more hinp =>
    cases hs
    exact .inr ⟨d, more, hinp, rfl⟩
  case h_3 more _ | h_4 more _ =>
    cases hs
    exact .inl (h.trans (h.agents s.sched more s.port s.rxRest s) (h.client _ _))
  case h_5 =>
    split at hs
    · exact .inl (h.rxTurn hs)
    · exact .inl (h.trans (h.agents _ _ _ _ s) (h.cycleTurn hs))
  case h_6 =>
    cases hs
    exact .inl (h.agents _ _ _ _ s)
  case h_7 =>
    split at hs
    · exact .inl (h.rxTurn hs)
    split at hs
    · exact .inl (h.trans (h.agents _ _ _ _ s) (h.exec hs))
    · cases hs
    · cases hs

theorem StepUpdates.turn (h : StepUpdates R) {k : Turn} {s t : State} (hs : turn k s = .next t) :
    R s t ∨ ∃ d more, s.inp = .reset d :: more ∧ t = applyReset d { s with inp := more } := by
  cases k with
  | input => exact h.inputTurn hs
  | port => exact .inl (h.portTurn hs)
  | rx => exact .inl (h.rxTurn hs)
  | caller => exact .inl (h.callerTurn hs)
  | client =>
    cases hs
    exact .inl (h.clientTurn s)

/-- A step takes the reset input, or is a chain of elementary updates (R11, R12). -/
theorem StepUpdates.step (h : StepUpdates R) {s t : State} (hs : step s = .next t) :
    R s t ∨ ∃ ts d more, s.inp = .reset d :: more ∧ t = applyReset d { s with sched := ts, inp := more } := by
  cases hsched : s.sched with
  | nil =>
    rw [step_of_no_sched hsched] at hs
    obtain hR | ⟨d, more, hinp, ht⟩ := h.turn hs
    · exact .inl hR
    · exact .inr ⟨s.sched, d, more, hinp, ht⟩
  | cons k ts =>
    rw [step_of_sched hsched] at hs
    obtain hR | ⟨d, more, hinp, ht⟩ := h.turn hs
    · exact .inl (h.trans (h.agents _ _ _ _ s) hR)
    · exact .inr ⟨ts, d, more, hinp, ht⟩

end

end Sys2Proof.Machine
end

section
/-! The parameters of R6 and DEC_ATTACHED. -/

namespace Sys2Proof.Machine

@[simp] theorem flush_cfg (fl frm dst : Byte) (s : State) : (flush fl frm dst s).1.cfg = s.cfg := by
  obtain ⟨-, h⟩ | ⟨-, -, h⟩ | ⟨-, -, h⟩ := flush_cases fl frm dst s <;> rw [h]

@[simp] theorem flush_decAttached (fl frm dst : Byte) (s : State) :
    (flush fl frm dst s).1.decAttached = s.decAttached := by
  obtain ⟨-, h⟩ | ⟨-, -, h⟩ | ⟨-, -, h⟩ := flush_cases fl frm dst s <;> rw [h]

@[simp] theorem txWrite_cfg (bytes : List Byte) (s : State) : (txWrite bytes s).1.cfg = s.cfg := by
  obtain ⟨-, h⟩ | ⟨-, h⟩ := txWrite_cases bytes s <;> simp [h]

@[simp] theorem txWrite_decAttached (bytes : List Byte) (s : State) :
    (txWrite bytes s).1.decAttached = s.decAttached := by
  obtain ⟨-, h⟩ | ⟨-, h⟩ := txWrite_cases bytes s <;> simp [h]

@[simp] theorem qRead_cfg (who : RespChan) (t : Word) (s : State) : (qRead who t s).1.cfg = s.cfg := by
  obtain ⟨-, h⟩ | ⟨_, _, -, -, h⟩ | ⟨-, -, -, h⟩ | ⟨-, -, -, h⟩ := qRead_cases who t s <;> simp [h]

@[simp] theorem qRead_decAttached (who : RespChan) (t : Word) (s : State) :
    (qRead who t s).1.decAttached = s.decAttached := by
  obtain ⟨-, h⟩ | ⟨_, _, -, -, h⟩ | ⟨-, -, -, h⟩ | ⟨-, -, -, h⟩ := qRead_cases who t s <;> simp [h]

/-- The parameters and DEC_ATTACHED of `t` are those of `s`. -/
def SameSetup (s t : State) : Prop := t.cfg = s.cfg ∧ t.decAttached = s.decAttached

theorem sameSetup_updates : StepUpdates SameSetup where
  refl _ := ⟨rfl, rfl⟩
  trans := fun ⟨hc, hd⟩ ⟨hc', hd'⟩ => ⟨hc'.trans hc, hd'.trans hd⟩
  reply _ _ _ := ⟨rfl, rfl⟩
  client _ _ := ⟨rfl, rfl⟩
  flush fl frm dst s := ⟨flush_cfg fl frm dst s, flush_decAttached fl frm dst s⟩
  txWrite bytes s := ⟨txWrite_cfg bytes s, txWrite_decAttached bytes s⟩
  qRead who t s := ⟨qRead_cfg who t s, qRead_decAttached who t s⟩
  crc _ _ := ⟨rfl, rfl⟩
  decoder _ _ _ _ _ := ⟨rfl, rfl⟩
  qPush item s := ⟨qPush_cfg s item, qPush_decAttached s item⟩
  tickTimer s := ⟨tickTimer_cfg s, tickTimer_decAttached s⟩
  enterTerminal s := ⟨enterTerminal_cfg s, enterTerminal_decAttached s⟩
  draws _ _ := ⟨rfl, rfl⟩
  agents _ _ _ _ _ := ⟨rfl, rfl⟩

/-- Settles O43: no elementary update writes the parameters or DEC_ATTACHED, and the reset input, the one step that is
no chain of those, writes DEC_ATTACHED with the level it samples (R6, R36, R295). -/
theorem configurationIsFixed : Obligations.ConfigurationIsFixed := by
  constructor
  · intro s t hs
    obtain ⟨hcfg, -⟩ | ⟨ts, d, more, -, rfl⟩ := sameSetup_updates.step hs
    · exact hcfg
    · rfl
  · intro s t hs
    obtain ⟨-, hatt⟩ | ⟨ts, d, more, hinp, rfl⟩ := sameSetup_updates.step hs
    · exact .inl hatt
    · exact .inr ⟨more, hinp, rfl⟩

end Sys2Proof.Machine
end

section
/-! SUPPORT. What a byte fed to the decoder does in each of its states (R151), and what the decoder's invariant says in
each of them (R23, R24, R160). -/

namespace Sys2Proof.Machine

section
variable {b : Byte} {s : State}

theorem low7_eq_ofNat (b : Byte) : low7 b = BitVec.ofNat 7 b.toNat := by
  apply BitVec.eq_of_toNat_eq
  rw [low7_toNat, BitVec.toNat_ofNat]

theorem decStep_awaitFrom (h : s.dstate = .awaitFrom) : decStep b s = .next
    (if idMatch b s.expFrom wildcardRs then { s with rxbuf := writeByte s.rxbuf 0 b, rxn := 1, dstate := .awaitTo }
      else s) := by
  simp only [decStep, h]
  split <;> rfl

theorem decStep_awaitTo (h : s.dstate = .awaitTo) : decStep b s = .next
    (if idMatch b s.expTo wildcardRs then { s with rxbuf := writeByte s.rxbuf 1 b, rxn := 2, dstate := .awaitLen }
      else clearDecoder s) := by
  simp only [decStep, h]
  split <;> rfl

theorem decStep_awaitLen (h : s.dstate = .awaitLen) : decStep b s = .next
    (if low7 b = 0 ∨ s.cfg.decLenCap < (low7 b).toNat then clearDecoder s
      else { s with rxbuf := writeByte s.rxbuf 2 b, rxn := 3, drem := low7 b, dstate := .awaitData }) := by
  simp only [decStep, h]
  split <;> rfl

/-- The state after `b` is stored at RXN. -/
def stored (b : Byte) (s : State) : State :=
  { s with rxbuf := writeByte s.rxbuf s.rxn.toNat b, rxn := s.rxn + 1 }

theorem decStep_awaitData (h : s.dstate = .awaitData) (hlt : s.rxn.toNat < s.cfg.rxbufSize) : decStep b s = .next
    { stored b s with drem := s.drem - 1, dstate := if s.drem - 1 = 0 then .awaitCrc1 else .awaitData } := by
  simp only [decStep, h, storeRx_of_lt hlt, stored]

theorem decStep_awaitCrc1 (h : s.dstate = .awaitCrc1) (hlt : s.rxn.toNat < s.cfg.rxbufSize) :
    decStep b s = .next { stored b s with dstate := .awaitCrc2 } := by
  simp only [decStep, h, storeRx_of_lt hlt, stored]

theorem decStep_awaitCrc2 (h : s.dstate = .awaitCrc2) (hlt : s.rxn.toNat < s.cfg.rxbufSize) :
    decStep b s = .next (finishFrame (stored b s)) := by
  simp only [decStep, h, storeRx_of_lt hlt, stored]

theorem stored_rxn_toNat (hcfg : s.cfg.Ok) (hlt : s.rxn.toNat < s.cfg.rxbufSize) :
    (stored b s).rxn.toNat = s.rxn.toNat + 1 := by
  obtain ⟨-, hcap, -⟩ := hcfg
  have hlt : s.rxn.toNat < s.cfg.decLenCap + 5 := hlt
  show (s.rxn + 1).toNat = s.rxn.toNat + 1
  bv_omega

/-- The bytes held are an item under a correct checksum or are dropped (R157). -/
theorem finishFrame_eq {item : List Byte} (hn : 2 ≤ s.rxn.toNat) (hitem : item = readBytes s.rxbuf 0 s.rxn.toNat) :
    finishFrame s =
      if crcBytes s.cfg (item.take (item.length - 2)) = item.drop (item.length - 2) then qPush item (clearDecoder s)
      else clearDecoder s := by
  have hlast : s.rxn.toNat - (s.rxn.toNat - 2) = 2 := by omega
  subst hitem
  rw [readBytes_length, readBytes_take _ _ _ _ (by omega), readBytes_drop _ _ _ _ (by omega), hlast, Nat.zero_add]
  rfl

theorem execDecFeed_of_dead (hd : s.dead = true) : exec (.decFeed b) s = .next s := by
  simp [exec, execDecFeed, hd]

theorem execDecFeed_of_unwritten (hd : s.dead = false) (he : s.expSet = false) :
    exec (.decFeed b) s = .refused .expectationsUnwritten := by
  simp [exec, execDecFeed, hd, he]

theorem execDecFeed_of_live (hd : s.dead = false) (he : s.expSet = true) : exec (.decFeed b) s = decStep b s := by
  simp [exec, execDecFeed, hd, he]

theorem decoderInv_awaitFrom (h : s.dstate = .awaitFrom) : DecoderInv s ↔ s.rxn = 0 := by
  simp only [DecoderInv, h]

theorem decoderInv_awaitTo (h : s.dstate = .awaitTo) : DecoderInv s ↔ s.rxn = 1 ∧ fromHeld s := by
  simp only [DecoderInv, h]

theorem decoderInv_awaitLen (h : s.dstate = .awaitLen) : DecoderInv s ↔ s.rxn = 2 ∧ fromHeld s ∧ toHeld s := by
  simp only [DecoderInv, h]

/-- The header of three bytes is held and has passed its tests. -/
abbrev HeaderHeld (s : State) : Prop := fromHeld s ∧ toHeld s ∧ lenHeld s

theorem decoderInv_awaitData (h : s.dstate = .awaitData) : DecoderInv s ↔
    HeaderHeld s ∧ 1 ≤ s.drem.toNat ∧ s.drem.toNat ≤ rxLen s ∧ s.rxn.toNat + s.drem.toNat = 3 + rxLen s := by
  simp only [DecoderInv, h, and_assoc]

theorem decoderInv_awaitCrc1 (h : s.dstate = .awaitCrc1) : DecoderInv s ↔
    HeaderHeld s ∧ s.rxn.toNat = 3 + rxLen s := by
  simp only [DecoderInv, h, and_assoc]

theorem decoderInv_awaitCrc2 (h : s.dstate = .awaitCrc2) : DecoderInv s ↔
    HeaderHeld s ∧ s.rxn.toNat = 4 + rxLen s := by
  simp only [DecoderInv, h, and_assoc]

/-- RXN is an offset of RXBUF (R53). -/
theorem DecoderInv.rxn_lt (h : DecoderInv s) : s.rxn.toNat < s.cfg.rxbufSize := by
  show s.rxn.toNat < s.cfg.decLenCap + 5
  cases hst : s.dstate with
  | awaitFrom =>
    rw [(decoderInv_awaitFrom hst).1 h]
    exact Nat.succ_pos _
  | awaitTo =>
    obtain ⟨hrxn, -⟩ := (decoderInv_awaitTo hst).1 h
    rw [hrxn]
    exact Nat.lt_add_left _ (by decide)
  | awaitLen =>
    obtain ⟨hrxn, -⟩ := (decoderInv_awaitLen hst).1 h
    rw [hrxn]
    exact Nat.lt_add_left _ (by decide)
  | awaitData =>
    obtain ⟨⟨-, -, hlen⟩, hdrem, -, hrxn⟩ := (decoderInv_awaitData hst).1 h
    omega
  | awaitCrc1 =>
    obtain ⟨⟨-, -, hlen⟩, hrxn⟩ := (decoderInv_awaitCrc1 hst).1 h
    omega
  | awaitCrc2 =>
    obtain ⟨⟨-, -, hlen⟩, hrxn⟩ := (decoderInv_awaitCrc2 hst).1 h
    omega

/-- A byte fed is stored at RXN or not at all (R52, R151). -/
theorem decStep_rxbuf {t : State} (h : DecoderInv s) (hs : decStep b s = .next t) :
    t.rxbuf = s.rxbuf ∨ t.rxbuf = writeByte s.rxbuf s.rxn.toNat b := by
  have hlt := h.rxn_lt
  cases hst : s.dstate with
  | awaitFrom =>
    rw [(decoderInv_awaitFrom hst).1 h]
    rw [decStep_awaitFrom hst] at hs
    cases hs
    split
    · exact .inr rfl
    · exact .inl rfl
  | awaitTo =>
    obtain ⟨hrxn, -⟩ := (decoderInv_awaitTo hst).1 h
    rw [hrxn]
    rw [decStep_awaitTo hst] at hs
    cases hs
    split
    · exact .inr rfl
    · exact .inl rfl
  | awaitLen =>
    obtain ⟨hrxn, -⟩ := (decoderInv_awaitLen hst).1 h
    rw [hrxn]
    rw [decStep_awaitLen hst] at hs
    cases hs
    split
    · exact .inl rfl
    · exact .inr rfl
  | awaitData =>
    rw [decStep_awaitData hst hlt] at hs
    cases hs
    exact .inr rfl
  | awaitCrc1 =>
    rw [decStep_awaitCrc1 hst hlt] at hs
    cases hs
    exact .inr rfl
  | awaitCrc2 =>
    rw [decStep_awaitCrc2 hst hlt] at hs
    cases hs
    obtain heq | ⟨item, heq⟩ := finishFrame_cases (stored b s) <;> rw [heq]
    · exact .inr rfl
    · exact .inr (qPush_rxbuf _ item)

end

/-- Settles O23: the equation of each state of the decoder (R151), under the two tests of R150. -/
theorem decFeedTransitions : Obligations.DecFeedTransitions := by
  refine ⟨fun b s => execDecFeed_of_dead, fun b s => execDecFeed_of_unwritten, fun b s hcfg hd he => ?live⟩
  case live =>
    rw [execDecFeed_of_live hd he]
    refine ⟨?source, ?noSource, ?target, ?noTarget, ?badLen, ?goodLen, ?data, ?lastData, ?crc1, ?crc2⟩
    case source =>
      intro hst hm
      rw [decStep_awaitFrom hst, if_pos ((idMatch_iff ..).2 hm)]
    case noSource =>
      intro hst hm
      rw [decStep_awaitFrom hst, if_neg (mt (idMatch_iff ..).1 hm)]
    case target =>
      intro hst hm
      rw [decStep_awaitTo hst, if_pos ((idMatch_iff ..).2 hm)]
    case noTarget =>
      intro hst hm
      rw [decStep_awaitTo hst, if_neg (mt (idMatch_iff ..).1 hm)]
      rfl
    case badLen =>
      intro hst hlen
      rw [← low7_toNat] at hlen
      rw [decStep_awaitLen hst, if_pos (hlen.imp_left BitVec.eq_of_toNat_eq)]
      rfl
    case goodLen =>
      intro hst hpos hcap
      rw [← low7_toNat] at hpos hcap
      have hzero : low7 b ≠ 0 := fun h0 => by rw [h0] at hpos; exact absurd hpos (by decide)
      rw [decStep_awaitLen hst, if_neg (by simp only [hzero, false_or]; omega), low7_eq_ofNat]
    case data =>
      intro hst hlt hdrem
      rw [decStep_awaitData hst hlt, if_neg (by bv_omega), ← hst]
      rfl
    case lastData =>
      intro hst hlt hdrem
      rw [decStep_awaitData hst hlt, hdrem]
      rfl
    case crc1 => exact fun hst hlt => decStep_awaitCrc1 hst hlt
    case crc2 =>
      rintro hst hlt hn m item t rfl hitem rfl
      have hrxn := stored_rxn_toNat (b := b) hcfg hlt
      have hheld : item = readBytes (stored b s).rxbuf 0 (stored b s).rxn.toNat := by
        rw [hitem, hrxn]
        rfl
      rw [decStep_awaitCrc2 hst hlt, finishFrame_eq (by omega) hheld]
      exact ⟨fun hgood => congrArg _ (if_pos hgood), fun hbad => congrArg _ (if_neg hbad)⟩

end Sys2Proof.Machine
end

section
/-! SUPPORT. What a turn of the host's procedure in progress can do, said once: the command of its stage, and then the
procedure's next stage or its return (R223, R225, R227, R230, R232). -/

namespace Sys2Proof.Machine

/-- The stage is the wait for the response of a Q.READ that pends. -/
def Stage.waits : Stage → Bool
  | .pendWait _ _ => true
  | .connectFlush _ _ | .sendQuery _ _ _ | .sendPack _ _ _ | .sendWrite _ => false
  | .pendRead _ _ _ | .pendUnpack _ _ _ => false

theorem clientWaits_of_proc {s : State} {p : Proc} (h : s.client.proc = some p) : clientWaits s = p.stage.waits := by
  obtain ⟨ctx, stage⟩ := p
  unfold clientWaits
  rw [h]
  cases stage <;> rfl

theorem clientWaits_of_no_proc {s : State} (h : s.client.proc = none) : clientWaits s = false := by
  unfold clientWaits
  rw [h]

/-- Where a procedure in the context `ctx` goes from `u` when the command of its stage is answered: back to its caller,
or on to a stage that issues a command. A procedure that a caller has called itself stays in its context. -/
inductive ProcMoves (ctx : Ctx) (u : State) : State → Prop where
  | returns (r : CallResult) : ProcMoves ctx u (finishCall r u)
  | goesOn (stage : Stage) : stage.waits = false → ProcMoves ctx u (setProc ctx stage u)
  | inner (ctx' : Ctx) (stage : Stage) : (∀ code, ctx ≠ .top code) → stage.waits = false →
      ProcMoves ctx u (setProc ctx' stage u)

section
variable {ctx : Ctx}

theorem nextSlot_moves (hctx : ∀ code, ctx ≠ .top code) (d : Descriptor) (saved : Byte) (left : Nat)
    (done : List Slot) (u : State) : ProcMoves ctx u (nextSlot d saved left done u) := by
  unfold nextSlot
  split <;> exact .inner _ _ hctx rfl

theorem nextAttempt_moves (hctx : ∀ code, ctx ≠ .top code) (left : Nat) (u : State) :
    ProcMoves ctx u (nextAttempt left u) := by
  unfold nextAttempt
  split
  · exact .returns _
  · exact .inner _ _ hctx rfl

theorem clientReturn_moves (ctx : Ctx) (status : Status) (frame : Option Frame) (u : State) :
    ProcMoves ctx u (clientReturn ctx status frame u) := by
  unfold clientReturn
  cases ctx with
  | top | rangeClose => exact .returns _
  | rangeOpen => exact .inner _ _ (by simp) rfl
  | rangeSend =>
    dsimp only
    split
    · exact nextSlot_moves (by simp) ..
    · exact .inner _ _ (by simp) rfl
  | rangePend => exact nextSlot_moves (by simp) ..
  | deviceOpen => exact nextAttempt_moves (by simp) ..
  | deviceSend =>
    dsimp only
    split
    · exact .returns _
    · exact .inner _ _ (by simp) rfl
  | devicePend =>
    dsimp only
    split
    · exact .returns _
    split
    · exact .returns _
    · exact nextAttempt_moves (by simp) ..

theorem afterRead_moves (ctx : Ctx) (rw : Bool) (d : Descriptor) (r : Reply) (u : State) :
    ProcMoves ctx u (afterRead ctx rw d r u) := by
  unfold afterRead
  split
  · exact .goesOn _ rfl
  split <;> exact clientReturn_moves ..

end

/-- CONNECT_TO's own write to the template (R223). -/
def retarget (targetId : Byte) (auxId : Nat) (s : State) : State :=
  { s with client := { s.client with targetId := targetId, auxId := auxId } }

/-- The state once the command of `stage` is answered, before the procedure goes on. -/
inductive HostCommand (s : State) : Stage → State → Prop where
  | flush (targetId : Byte) (auxId : Nat) (r : Reply) : HostCommand s (.connectFlush targetId auxId)
      (reply 0x21 r (flush 0x03 targetId s.cfg.hostId (retarget targetId auxId s)).1)
  | write (frame : List Byte) (r : Reply) : HostCommand s (.sendWrite frame) (reply 0x22 r (txWrite frame s).1)
  | dequeue (rw : Bool) (d : Descriptor) (timeout : Word) (item : List Byte) (rest : List (List Byte)) (r : Reply) :
      s.q = item :: rest → HostCommand s (.pendRead rw d timeout) (reply 0x20 r { s with q := rest })
  | take (rw : Bool) (d : Descriptor) (r : Reply) : s.client.inbox = some r →
      HostCommand s (.pendWait rw d) { s with client := { s.client with inbox := none } }
  | answer (stage : Stage) (code : Byte) (r : Reply) : stage.waits = false → HostCommand s stage (reply code r s)

/-- The turn of the procedure `p` from `s`: it goes on waiting, or its Q.READ pends, or the command of its stage is
answered and the procedure moves. -/
inductive HostTurn (p : Proc) (s : State) : State → Prop where
  | idle : HostTurn p s s
  | pends (rw : Bool) (d : Descriptor) (timeout : Word) : p.stage = .pendRead rw d timeout → s.dead = false → s.q = [] →
      timeout ≠ 0 → HostTurn p s (setProc p.ctx (.pendWait rw d) (armRead .client timeout s))
  | answered (u t : State) : HostCommand s p.stage u → ProcMoves p.ctx u t → HostTurn p s t

section
variable (ctx : Ctx) (rw : Bool) (d : Descriptor) (s : State)

theorem issueQuery_turn (payload : List Byte) :
    HostTurn ⟨ctx, .sendQuery rw d payload⟩ s (issueQuery ctx rw d payload s) := by
  refine .answered _ _ (.answer _ 0x24 (isErrReply s) rfl) ?_
  unfold issueQuery
  dsimp only
  split
  · exact clientReturn_moves ..
  split
  · exact clientReturn_moves ..
  · exact .goesOn _ rfl

theorem issuePack_turn (data : List Byte) :
    HostTurn ⟨ctx, .sendPack rw d data⟩ s (issuePack ctx rw d data s) := by
  refine .answered _ _ (.answer _ (packCommand rw d data s).1 (packCommand rw d data s).2 rfl) ?_
  unfold issuePack
  dsimp only
  split
  · exact .goesOn _ rfl
  · exact clientReturn_moves ..

theorem issueRead_turn (timeout : Word) :
    HostTurn ⟨ctx, .pendRead rw d timeout⟩ s (issueRead ctx rw d timeout s) := by
  unfold issueRead
  obtain ⟨-, heq⟩ | ⟨item, rest, -, hq, heq⟩ | ⟨-, -, -, heq⟩ | ⟨hd, hq, ht, heq⟩ := qRead_cases .client timeout s <;>
    rw [heq]
  · exact .answered _ _ (.answer _ _ _ rfl) (afterRead_moves ..)
  · exact .answered _ _ (.dequeue _ _ _ item rest _ hq) (afterRead_moves ..)
  · exact .answered _ _ (.answer _ _ _ rfl) (afterRead_moves ..)
  · exact .pends rw d timeout rfl hd hq ht

theorem issueUnpack_turn (item : List Byte) :
    HostTurn ⟨ctx, .pendUnpack rw d item⟩ s (issueUnpack ctx rw d item s) := by
  unfold issueUnpack
  split
  · refine .answered _ _ (.answer _ 0x12 (unpackRsReply s.cfg s.client.targetId s.cfg.hostId item) rfl) ?_
    dsimp only
    split <;> exact clientReturn_moves ..
  · refine .answered _ _ (.answer _ 0x13 (unpackCanReply s.cfg s.client.targetId item) rfl) ?_
    dsimp only
    split <;> exact clientReturn_moves ..

end

theorem issueStage_turn (p : Proc) (s : State) : HostTurn p s (issueStage p s) := by
  obtain ⟨ctx, stage⟩ := p
  cases stage with
  | connectFlush => exact .answered _ _ (.flush ..) (clientReturn_moves ..)
  | sendQuery => exact issueQuery_turn ..
  | sendPack => exact issuePack_turn ..
  | sendWrite => exact .answered _ _ (.write ..) (clientReturn_moves ..)
  | pendRead => exact issueRead_turn ..
  | pendWait =>
    unfold issueStage
    dsimp only
    split
    · exact .idle
    · rename_i r hr
      exact .answered _ _ (.take _ _ r hr) (afterRead_moves ..)
  | pendUnpack => exact issueUnpack_turn ..

/-- The host agent's turn: nothing, or the turn of the procedure in progress. -/
theorem clientTurn_cases (s : State) :
    clientTurn s = s ∨ ∃ p, s.client.proc = some p ∧ HostTurn p s (clientTurn s) := by
  unfold clientTurn
  split
  · exact .inl rfl
  · rename_i p hp
    split
    · exact .inr ⟨p, hp, issueStage_turn p s⟩
    · exact .inl rfl

end Sys2Proof.Machine
end

section
/-! SUPPORT. What a step can do, said once: one case for each thing an agent's turn does (R11, R12). -/

namespace Sys2Proof.Machine

/-- What one agent's turn makes of `s`. -/
inductive TurnOf (s : State) : State → Prop where
  /-- an agent with nothing to do -/
  | idle : TurnOf s s
  /-- the reset input -/
  | reset (d : Bool) (more : List Stim) : s.inp = .reset d :: more → TurnOf s (applyReset d { s with inp := more })
  /-- bytes for the command port, or a write of the host's own fields from outside -/
  | delivery (inp : List Stim) (port : List Byte) (form : Form) (tstate : Bool) (caller : Nat) : TurnOf s
      { s with inp := inp, port := port, client := { s.client with form := form, tstate := tstate, caller := caller } }
  /-- a clock cycle -/
  | cycle (is : List Instr) (more : List Stim) {t : State} : s.inp = .cycle is :: more →
      cycleTurn is { s with inp := more } = .next t → TurnOf s t
  /-- the command at the head of the command port -/
  | command (i : Instr) (rest : List Byte) {t : State} : decodeCommand s.port = .ok i rest →
      exec i { s with port := rest } = .next t → TurnOf s t
  /-- an undefined opcode there -/
  | undefinedCode (code : Byte) (rest : List Byte) : TurnOf s (reply code (raise .ill) { s with port := rest })
  /-- the next byte of the chunk in delivery -/
  | chunkByte (b : Byte) (rest : List Byte) {t : State} : exec (.decFeed b) { s with rxRest := rest } = .next t →
      TurnOf s t
  /-- an event of the RX port or the tick input, or a call -/
  | event (p : Port) (a : CallArgs) (bytes left : List Byte) (inp : List Stim) (i : Instr) {t : State} :
      p ≠ .command → decode p a bytes = .ok i left → exec i { s with inp := inp } = .next t → TurnOf s t
  /-- the host's procedure in progress -/
  | client : TurnOf s (clientTurn s)
  /-- a waiting caller's procedure -/
  | caller (k c : Nat) (i : Instr) {u : State} : s.client.waiting[k]? = some (c, i) → mayCall c i s →
      exec i { s with client := { s.client with caller := c, waiting := s.client.waiting.eraseIdx k } } = .next u →
      TurnOf s { u with client := { u.client with caller := s.client.caller } }

theorem portTurn_turnOf {s t : State} (h : portTurn s = .next t) : TurnOf s t := by
  unfold portTurn at h
  split at h
  · rename_i i rest hd
    exact .command i rest hd h
  · cases h
    exact .undefinedCode _ _
  · cases h
    exact .idle

theorem rxTurn_turnOf {s t : State} (h : rxTurn s = .next t) : TurnOf s t := by
  unfold rxTurn at h
  split at h
  · cases h
    exact .idle
  · exact .chunkByte _ _ h

theorem callerTurn_turnOf {k : Nat} {s t : State} (h : callerTurn k s = .next t) : TurnOf s t := by
  obtain rfl | ⟨c, i, u, hw, hm, hu, rfl⟩ := callerTurn_eq_next h
  · exact .idle
  · exact .caller k c i hw hm hu

theorem inputTurn_turnOf {s t : State} (h : inputTurn s = .next t) : TurnOf s t := by
  unfold inputTurn at h
  split at h
  case h_1 =>
    cases h
    exact .idle
  case h_2 hinp =>
    cases h
    exact .reset _ _ hinp
  case h_3 form tstate more _ =>
    cases h
    exact .delivery more s.port form tstate s.client.caller
  case h_4 k more _ =>
    cases h
    exact .delivery more s.port s.client.form s.client.tstate k
  case h_5 is more hinp =>
    split at h
    · exact rxTurn_turnOf h
    · exact .cycle is more hinp h
  case h_6 bytes more _ =>
    cases h
    exact .delivery more (s.port ++ bytes) s.client.form s.client.tstate s.client.caller
  case h_7 p a bytes more hp hinp =>
    split at h
    · exact rxTurn_turnOf h
    split at h
    · rename_i i left hd
      exact .event p a bytes left _ i hp hd h
    · cases h
    · cases h

theorem turn_turnOf {k : Turn} {s t : State} (h : turn k s = .next t) : TurnOf s t := by
  cases k with
  | input => exact inputTurn_turnOf h
  | port => exact portTurn_turnOf h
  | rx => exact rxTurn_turnOf h
  | client =>
    cases h
    exact .client
  | caller => exact callerTurn_turnOf h

/-- A step is one agent's turn, the schedule moved on. -/
theorem step_turnOf {s t : State} (h : step s = .next t) : ∃ ts, TurnOf { s with sched := ts } t := by
  unfold step at h
  split at h
  · exact ⟨s.sched, turn_turnOf h⟩
  · exact ⟨_, turn_turnOf h⟩

end Sys2Proof.Machine
end

section
/-! SUPPORT. What each operation of the block does to the invariants of a state. -/

namespace Sys2Proof.Machine

/-! ### The reset input -/

theorem stateInv_applyReset {s : State} (hcfg : s.cfg.Ok) (d : Bool) : StateInv (applyReset d s) where
  config := hcfg
  buffer := ⟨.nil, nofun⟩
  decoder := rfl
  queue := ⟨Nat.zero_le _, nofun, fun _ => nofun⟩
  read := ⟨nofun, fun _ => rfl, by simp [applyReset], nofun⟩
  client := ⟨rfl, nofun, by simp [applyReset, clientWaits], by simp [applyReset]⟩

/-- Settles O45: the state after reset is one that the reset input makes. -/
theorem invAtReset : Obligations.InvAtReset :=
  stateInv_applyReset (s := State.reset) (by decide) true

section
variable {s : State}

/-! ### Updates of fields that no invariant reads -/

theorem StateInv.reply (h : StateInv s) (code : Byte) (r : Reply) : StateInv (reply code r s) :=
  ⟨h.config, h.buffer, h.decoder, h.queue, h.read, h.client⟩

theorem StateInv.crc (h : StateInv s) (c : Word) : StateInv { s with crc := c } :=
  ⟨h.config, h.buffer, h.decoder, h.queue, h.read, h.client⟩

theorem StateInv.draws (h : StateInv s) (n : Nat) : StateInv { s with draws := n } :=
  ⟨h.config, h.buffer, h.decoder, h.queue, h.read, h.client⟩

/-- The ports, the schedule and what outside callers write. -/
theorem StateInv.moved (h : StateInv s) (port rxRest : List Byte) (inp : List Stim) (sched : List Turn) (form : Form)
    (tstate : Bool) (caller : Nat) (waiting : List (Nat × Instr)) :
    StateInv { s with
      port := port, rxRest := rxRest, inp := inp, sched := sched
      client := { s.client with form := form, tstate := tstate, caller := caller, waiting := waiting } } :=
  ⟨h.config, h.buffer, h.decoder, h.queue, h.read, h.client⟩

theorem StateInv.agents (h : StateInv s) (port rxRest : List Byte) (inp : List Stim) (sched : List Turn) :
    StateInv { s with port := port, rxRest := rxRest, inp := inp, sched := sched } :=
  h.moved port rxRest inp sched _ _ _ _

theorem StateInv.emit (h : StateInv s) (bytes : List Byte) : StateInv (emit bytes s) :=
  ⟨h.config, h.buffer, h.decoder, h.queue, h.read, h.client⟩

theorem StateInv.retarget (h : StateInv s) (targetId : Byte) (auxId : Nat) : StateInv (retarget targetId auxId s) :=
  ⟨h.config, h.buffer, h.decoder, h.queue, h.read, h.client⟩

/-! ### The pending read and the queue -/

/-- The response that a read waits for goes to its reader (R40 (c)). -/
theorem clientInv_completeRead (h : ClientInv s) (r : Reply) : ClientInv (completeRead r s) := by
  obtain ⟨hlock, hpair, hwaits, hboth⟩ := h
  have hproc : clientWaits (completeRead r s) = clientWaits s := by
    unfold clientWaits
    rw [completeRead_client_proc]
  refine ⟨by simpa using hlock, by simpa using hpair, ?_, by simp⟩
  rw [hproc, hwaits]
  by_cases hc : s.respChan = .client <;> simp [hc]

/-- A completed read restores the read's invariants, from any state in which the others hold. -/
theorem stateInv_completeRead (r : Reply) (config : s.cfg.Ok) (buffer : Memory.wf s.cfg.rxbufSize s.rxbuf)
    (decoder : DecoderInv s) (queue : QueueInv s) (dead : s.dead = true → s.q = []) (client : ClientInv s) :
    StateInv (completeRead r s) where
  config := config
  buffer := buffer
  decoder := decoder
  queue := queue
  read := ⟨nofun, fun _ => rfl, by simp, fun hd => ⟨dead hd, rfl⟩⟩
  client := clientInv_completeRead client r

/-- An item fit for the queue: of a legal size, and with a decoder attached one that it emits (R39 (d), (e)). -/
structure FitItem (s : State) (item : List Byte) : Prop where
  nonempty : 1 ≤ item.length
  size : item.length ≤ s.cfg.itemMax
  accepted : s.decAttached = true → AcceptedItem s item

/-- A queue of old items and `item` keeps the queue's invariants, when it is not too long. -/
theorem QueueInv.append (h : QueueInv s) {item : List Byte} (hitem : FitItem s item) {q : List (List Byte)}
    (hq : ∀ x ∈ q, x ∈ s.q) (hlen : q.length < s.cfg.qCap) : QueueInv { s with q := q ++ [item] } := by
  obtain ⟨-, hsize, hacc⟩ := h
  have hmem : ∀ x ∈ q ++ [item], x ∈ s.q ∨ x = item := fun x hx =>
    (List.mem_append.1 hx).imp (hq x) List.mem_singleton.1
  refine ⟨by simpa using hlen, fun x hx => ?_, fun hatt x hx => ?_⟩
  · obtain hold | rfl := hmem x hx
    · exact hsize x hold
    · exact ⟨hitem.nonempty, hitem.size⟩
  · obtain hold | rfl := hmem x hx
    · exact hacc hatt x hold
    · exact hitem.accepted hatt

/-- `q_push` on a live block (R181). -/
theorem StateInv.qPush (h : StateInv s) (hd : s.dead = false) {item : List Byte} (hitem : FitItem s item) :
    StateInv (qPush item s) := by
  obtain ⟨hlen, -⟩ := h.queue
  have hread : ∀ q, s.rdPend = false → ReadInv { s with q := q } := fun q hp => by
    obtain ⟨-, htmr, hchan, -⟩ := h.read
    exact ⟨by simp [hp], htmr, hchan, by simp [hd]⟩
  obtain ⟨-, heq⟩ | ⟨hp, hfull, heq⟩ | ⟨hp, hroom, heq⟩ := qPush_cases item s <;> rw [heq]
  · exact stateInv_completeRead _ h.config h.buffer h.decoder h.queue (by simp [hd]) h.client
  · have hshort : (s.q.drop 1).length < s.cfg.qCap := by
      obtain ⟨-, -, hcap, -⟩ := h.config
      rw [List.length_drop]
      omega
    have hqueue := h.queue.append hitem (fun _ => List.mem_of_mem_drop) hshort
    exact ⟨h.config, h.buffer, h.decoder, hqueue, hread _ hp, h.client⟩
  · have hqueue := h.queue.append hitem (fun _ => id) (lt_of_le_of_ne hlen hroom)
    exact ⟨h.config, h.buffer, h.decoder, hqueue, hread _ hp, h.client⟩

theorem StateInv.tickTimer (h : StateInv s) : StateInv (tickTimer s) := by
  obtain ⟨hpend, htmr, hchan, hdead⟩ := h.read
  obtain ⟨-, heq⟩ | ⟨hp, hne, heq⟩ | ⟨hp, -, heq⟩ := tickTimer_cases s <;> rw [heq]
  · exact h
  · exact ⟨h.config, h.buffer, h.decoder, h.queue, ⟨fun _ => ⟨(hpend hp).1, hne⟩, by simp [hp], hchan, hdead⟩,
      h.client⟩
  · exact stateInv_completeRead _ h.config h.buffer h.decoder h.queue (fun hd => (hdead hd).1) h.client

/-- The oldest item leaves a queue that is not empty (R186). -/
theorem StateInv.dequeue (h : StateInv s) {item : List Byte} {rest : List (List Byte)} (hq : s.q = item :: rest) :
    StateInv { s with q := rest } := by
  obtain ⟨hlen, hsize, hacc⟩ := h.queue
  obtain ⟨hpend, htmr, hchan, hdead⟩ := h.read
  have hmem : ∀ x ∈ rest, x ∈ s.q := fun x hx => hq ▸ List.mem_cons_of_mem item hx
  have hne : s.q ≠ [] := by simp [hq]
  refine ⟨h.config, h.buffer, h.decoder, ⟨?_, fun x hx => hsize x (hmem x hx), fun ha x hx => hacc ha x (hmem x hx)⟩,
    ⟨fun hp => absurd (hpend hp).1 hne, htmr, hchan, fun hd => absurd (hdead hd).1 hne⟩, h.client⟩
  rw [hq] at hlen
  exact Nat.le_of_succ_le hlen

/-- The read's invariants stand when a read is armed on a live block with an empty queue (R186). -/
theorem readInv_armRead {who : RespChan} {t : Word} (hd : s.dead = false) (hq : s.q = []) (ht : t ≠ 0)
    (hwho : who ≠ .idle) : ReadInv (armRead who t s) :=
  ⟨fun _ => ⟨hq, ht⟩, nofun, by simp [hwho], by simp [hd]⟩

/-- A Q.READ of the command port that is accepted while no read is pending (R186). -/
theorem StateInv.qRead_commandPort (h : StateInv s) (hp : s.rdPend = false) (t : Word) :
    StateInv (qRead .commandPort t s).1 := by
  obtain ⟨-, heq⟩ | ⟨item, rest, -, hq, heq⟩ | ⟨-, -, -, heq⟩ | ⟨hd, hq, ht, heq⟩ := qRead_cases .commandPort t s <;>
    rw [heq]
  · exact h
  · exact h.dequeue hq
  · exact h
  · have hidle : s.respChan = .idle := by
      obtain ⟨-, -, hchan, -⟩ := h.read
      simpa [hp] using hchan
    obtain ⟨hlock, hpair, hwaits, -⟩ := h.client
    refine ⟨h.config, h.buffer, h.decoder, h.queue, readInv_armRead hd hq ht nofun, hlock, hpair, ?_, nofun⟩
    show clientWaits s = true ↔ _
    simpa [hidle] using hwaits

/-! ### The decoder emptied, and the transport's commands -/

/-- With the queue and the decoder emptied, the queue's and the decoder's invariants hold under any expectations. -/
theorem StateInv.flush (h : StateInv s) (fl frm dst : Byte) : StateInv (flush fl frm dst s).1 := by
  obtain ⟨-, heq⟩ | ⟨-, -, heq⟩ | ⟨-, hd, heq⟩ := flush_cases fl frm dst s <;> rw [heq]
  · exact h
  · exact h
  · obtain ⟨hpend, htmr, hchan, -⟩ := h.read
    exact ⟨h.config, h.buffer, rfl, ⟨Nat.zero_le _, nofun, fun _ => nofun⟩,
      ⟨fun hp => ⟨rfl, (hpend hp).2⟩, htmr, hchan, by simp [hd]⟩, h.client⟩

theorem StateInv.txWrite (h : StateInv s) (bytes : List Byte) : StateInv (txWrite bytes s).1 := by
  obtain ⟨-, heq⟩ | ⟨-, heq⟩ := txWrite_cases bytes s <;> rw [heq]
  · exact h
  · exact h.emit bytes

/-- The entry into the terminal condition completes a pending read and empties the queue (R264). -/
theorem StateInv.enterTerminal (h : StateInv s) : StateInv (enterTerminal s) := by
  have hqueue : ∀ n, QueueInv { s with dead := true, q := [], rxn := n, dstate := .awaitFrom } :=
    fun _ => ⟨Nat.zero_le _, nofun, fun _ => nofun⟩
  obtain ⟨-, heq⟩ | ⟨hp, heq⟩ := enterTerminal_cases s <;> rw [heq]
  · exact stateInv_completeRead _ h.config h.buffer rfl (hqueue 0) (fun _ => rfl) h.client
  · obtain ⟨-, htmr, hchan, -⟩ := h.read
    exact ⟨h.config, h.buffer, rfl, hqueue 0, ⟨by simp [hp], htmr, hchan, by simp [hp]⟩, h.client⟩

theorem StateInv.clearDecoder (h : StateInv s) : StateInv (clearDecoder s) :=
  ⟨h.config, h.buffer, rfl, h.queue, h.read, h.client⟩

end

end Sys2Proof.Machine
end

section
/-! SUPPORT. A byte fed to the decoder keeps the invariants (R151, R160, R165). -/

namespace Sys2Proof.Machine

section
variable {b : Byte} {s t : State}

/-- A byte stored past the header leaves the header's bytes. -/
theorem readByte_stored (hbuf : Memory.wf s.cfg.rxbufSize s.rxbuf) {a : Nat} (ha : a < s.rxn.toNat) :
    readByte (stored b s).rxbuf a = readByte s.rxbuf a := by
  show readByte (writeByte s.rxbuf s.rxn.toNat b) a = _
  rw [readByte_writeByte hbuf.1, if_neg (by omega)]

theorem rxLen_stored (hbuf : Memory.wf s.cfg.rxbufSize s.rxbuf) (hn : 3 ≤ s.rxn.toNat) :
    rxLen (stored b s) = rxLen s := by
  unfold rxLen
  rw [readByte_stored hbuf (by omega)]

theorem headerHeld_stored (hbuf : Memory.wf s.cfg.rxbufSize s.rxbuf) (hn : 3 ≤ s.rxn.toNat) (h : HeaderHeld s) :
    HeaderHeld (stored b s) := by
  obtain ⟨hsource, htarget, hlen⟩ := h
  refine ⟨?_, ?_, ?_⟩
  · rw [fromHeld, readByte_stored hbuf (by omega)]
    exact hsource
  · rw [toHeld, readByte_stored hbuf (by omega)]
    exact htarget
  · rw [lenHeld, rxLen_stored hbuf hn]
    exact hlen

/-- New contents of the decoder that agree with its state. -/
theorem StateInv.decoding (h : StateInv s) {m : List Host.Cell} {n : BitVec 8} {d : BitVec 7} {st : DState}
    (buffer : Memory.wf s.cfg.rxbufSize m)
    (decoder : DecoderInv { s with rxbuf := m, rxn := n, drem := d, dstate := st }) :
    StateInv { s with rxbuf := m, rxn := n, drem := d, dstate := st } :=
  ⟨h.config, buffer, decoder, h.queue, h.read, h.client⟩

/-- A whole frame under an accepted header and a correct checksum is fit for the queue (R165). -/
theorem fitItem_of_header {item : List Byte} (hcfg : s.cfg.Ok) (hheld : HeaderHeld s) (hn : s.rxn.toNat = 5 + rxLen s)
    (hitem : item = readBytes s.rxbuf 0 s.rxn.toNat)
    (hcrc : crcBytes s.cfg (item.take (item.length - 2)) = item.drop (item.length - 2)) : FitItem s item := by
  obtain ⟨hsource, htarget, hpos, hcap⟩ := hheld
  obtain ⟨-, -, -, hmax, -⟩ := hcfg
  have hlen : item.length = 5 + rxLen s := by rw [hitem, readBytes_length, hn]
  have hbyte : ∀ a < 5, item.getD a 0 = readByte s.rxbuf a := fun a ha => by
    rw [hitem, readBytes_getD _ _ _ _ (by omega), Nat.zero_add]
  have hmax : s.cfg.decLenCap + 5 ≤ s.cfg.itemMax := hmax
  refine ⟨by omega, by omega, fun _ => ⟨?_, ?_, ?_, ?_, ?_, hcrc⟩⟩
  · rw [hbyte 0 (by decide)]
    exact hsource
  · rw [hbyte 1 (by decide)]
    exact htarget
  · rw [hbyte 2 (by decide)]
    exact hpos
  · rw [hbyte 2 (by decide)]
    exact hcap
  · rw [hbyte 2 (by decide), hlen, Nat.add_comm]
    rfl

/-- Storing a byte past the header keeps the header and counts the byte. -/
theorem StateInv.header_stored (h : StateInv s) (hn : 3 ≤ s.rxn.toNat) (hheld : HeaderHeld s) :
    HeaderHeld (stored b s) ∧ (stored b s).rxn.toNat = s.rxn.toNat + 1 ∧ rxLen (stored b s) = rxLen s :=
  ⟨headerHeld_stored h.buffer hn hheld, stored_rxn_toNat h.config h.decoder.rxn_lt, rxLen_stored h.buffer hn⟩

/-- A data byte: the last one leads to the checksum (R155). -/
theorem StateInv.decStep_awaitData (h : StateInv s) (hst : s.dstate = .awaitData) (hs : decStep b s = .next t) :
    StateInv t := by
  obtain ⟨hheld, hdrem, hle, hrxn⟩ := (decoderInv_awaitData hst).1 h.decoder
  obtain ⟨hheld', hrxn', hlen'⟩ := h.header_stored (b := b) (by omega) hheld
  have hleft : (s.drem - 1).toNat = s.drem.toNat - 1 := by bv_omega
  have hlt := h.decoder.rxn_lt
  rw [Machine.decStep_awaitData hst hlt] at hs
  cases hs
  refine h.decoding (wf_writeByte h.buffer hlt b) ?_
  split
  · rename_i hzero
    have hlast : s.drem.toNat - 1 = 0 := hleft.symm.trans (congrArg BitVec.toNat hzero)
    have hcount : (stored b s).rxn.toNat = 3 + rxLen (stored b s) := by omega
    exact (decoderInv_awaitCrc1 rfl).2 ⟨hheld', hcount⟩
  · rename_i hne
    have hpos : 1 ≤ (s.drem - 1).toNat := Nat.one_le_iff_ne_zero.2 fun h0 => hne (BitVec.eq_of_toNat_eq h0)
    have hle' : (s.drem - 1).toNat ≤ rxLen (stored b s) := by omega
    have hcount : (stored b s).rxn.toNat + (s.drem - 1).toNat = 3 + rxLen (stored b s) := by omega
    exact (decoderInv_awaitData rfl).2 ⟨hheld', hpos, hle', hcount⟩

/-- The first byte of the checksum (R156). -/
theorem StateInv.decStep_awaitCrc1 (h : StateInv s) (hst : s.dstate = .awaitCrc1) (hs : decStep b s = .next t) :
    StateInv t := by
  obtain ⟨hheld, hrxn⟩ := (decoderInv_awaitCrc1 hst).1 h.decoder
  obtain ⟨hheld', hrxn', hlen'⟩ := h.header_stored (b := b) (by omega) hheld
  have hcount : (stored b s).rxn.toNat = 4 + rxLen (stored b s) := by omega
  have hlt := h.decoder.rxn_lt
  rw [Machine.decStep_awaitCrc1 hst hlt] at hs
  cases hs
  exact h.decoding (wf_writeByte h.buffer hlt b) ((decoderInv_awaitCrc2 rfl).2 ⟨hheld', hcount⟩)

/-- The last byte of a frame, which is pushed or dropped (R157). -/
theorem StateInv.decStep_awaitCrc2 (h : StateInv s) (hd : s.dead = false) (hst : s.dstate = .awaitCrc2)
    (hs : decStep b s = .next t) : StateInv t := by
  obtain ⟨hheld, hrxn⟩ := (decoderInv_awaitCrc2 hst).1 h.decoder
  obtain ⟨hheld', hrxn', hlen'⟩ := h.header_stored (b := b) (by omega) hheld
  have hlt := h.decoder.rxn_lt
  have hclear : StateInv (Machine.clearDecoder (stored b s)) := h.decoding (wf_writeByte h.buffer hlt b) rfl
  rw [Machine.decStep_awaitCrc2 hst hlt, finishFrame_eq (by omega) rfl] at hs
  cases hs
  split
  · rename_i hcrc
    obtain ⟨hpos, hsize, hacc⟩ := fitItem_of_header (s := stored b s) h.config hheld' (by omega) rfl hcrc
    exact hclear.qPush hd ⟨hpos, hsize, hacc⟩
  · exact hclear

/-- A byte fed to a live decoder keeps the invariants, in each of its states (R151, R160). -/
theorem StateInv.decStep (h : StateInv s) (hd : s.dead = false) (hs : decStep b s = .next t) : StateInv t := by
  have hheader : ∀ a < 3, Memory.wf s.cfg.rxbufSize (writeByte s.rxbuf a b) := fun a ha =>
    wf_writeByte h.buffer (show a < s.cfg.decLenCap + 5 by omega) b
  have hread := readByte_writeByte h.buffer.1
  cases hst : s.dstate with
  | awaitFrom =>
    rw [decStep_awaitFrom hst] at hs
    cases hs
    split
    · rename_i hm
      exact h.decoding (hheader 0 (by decide)) ⟨rfl, by simpa [fromHeld, hread] using hm⟩
    · exact h
  | awaitTo =>
    obtain ⟨-, hsource⟩ := (decoderInv_awaitTo hst).1 h.decoder
    rw [decStep_awaitTo hst] at hs
    cases hs
    split
    · rename_i hm
      exact h.decoding (hheader 1 (by decide))
        ⟨rfl, by simpa [fromHeld, hread] using hsource, by simpa [toHeld, hread] using hm⟩
    · exact h.clearDecoder
  | awaitLen =>
    obtain ⟨-, hsource, htarget⟩ := (decoderInv_awaitLen hst).1 h.decoder
    rw [decStep_awaitLen hst] at hs
    cases hs
    split
    · exact h.clearDecoder
    · rename_i hlen
      obtain ⟨hzero, hcap⟩ := not_or.1 hlen
      have hpos : 1 ≤ (low7 b).toNat := Nat.one_le_iff_ne_zero.2 fun h0 => hzero (BitVec.eq_of_toNat_eq h0)
      refine h.decoding (hheader 2 (by decide)) ((decoderInv_awaitData rfl).2 ⟨⟨?_, ?_, ?_⟩, hpos, ?_, ?_⟩)
      · simpa [fromHeld, hread] using hsource
      · simpa [toHeld, hread] using htarget
      · simpa [lenHeld, rxLen, hread] using ⟨hpos, Nat.not_lt.1 hcap⟩
      · simp [rxLen, hread]
      · simp [rxLen, hread]
  | awaitData => exact h.decStep_awaitData hst hs
  | awaitCrc1 => exact h.decStep_awaitCrc1 hst hs
  | awaitCrc2 => exact h.decStep_awaitCrc2 hd hst hs

end

end Sys2Proof.Machine
end

section
/-! SUPPORT. The turns of the host's procedure in progress keep the invariants (R223, R225, R227). -/

namespace Sys2Proof.Machine

section
variable {s u t : State} {ctx : Ctx} {stage : Stage}

/-- What stands once the command of a procedure in the context `ctx` is answered: the block's invariants, the lock held
(R224), and no response owed. -/
structure Answered (ctx : Ctx) (u : State) : Prop where
  config : u.cfg.Ok
  buffer : Memory.wf u.cfg.rxbufSize u.rxbuf
  decoder : DecoderInv u
  queue : QueueInv u
  read : ReadInv u
  lock : u.client.lock = true
  pair : u.client.pair = true → ctx = .top 0x42
  notOwed : u.respChan ≠ .client
  inbox : u.client.inbox = none

/-- A procedure at a stage that does not wait has no response owed to it. -/
theorem StateInv.answered (h : StateInv s) (hproc : s.client.proc = some ⟨ctx, stage⟩) (hstage : stage.waits = false) :
    Answered ctx s := by
  obtain ⟨hlock, hpair, hwaits, -⟩ := h.client
  rw [clientWaits_of_proc hproc, hstage] at hwaits
  obtain ⟨howed, hinbox⟩ := not_or.1 (mt hwaits.2 Bool.false_ne_true)
  exact ⟨h.config, h.buffer, h.decoder, h.queue, h.read, by simpa [hproc] using hlock,
    fun hp => hpair hp _ hproc, howed, by simpa using hinbox⟩

@[simp] theorem flush_client (fl frm dst : Byte) (s : State) : (flush fl frm dst s).1.client = s.client := by
  obtain ⟨-, h⟩ | ⟨-, -, h⟩ | ⟨-, -, h⟩ := flush_cases fl frm dst s <;> rw [h]

@[simp] theorem txWrite_client (bytes : List Byte) (s : State) : (txWrite bytes s).1.client = s.client := by
  obtain ⟨-, h⟩ | ⟨-, h⟩ := txWrite_cases bytes s <;> simp [h]

/-- The command of the procedure in progress leaves it answered. -/
theorem HostCommand.answered (hc : HostCommand s stage u) (h : StateInv s)
    (hproc : s.client.proc = some ⟨ctx, stage⟩) : Answered ctx u := by
  cases hc with
  | flush targetId auxId r =>
    have hinv := ((h.retarget targetId auxId).flush 0x03 targetId s.cfg.hostId).reply 0x21 r
    refine hinv.answered (stage := .connectFlush targetId auxId) ?_ rfl
    rw [reply_client, flush_client]
    exact hproc
  | write frame r =>
    refine ((h.txWrite frame).reply 0x22 r).answered (stage := .sendWrite frame) ?_ rfl
    rw [reply_client, txWrite_client]
    exact hproc
  | dequeue rw d timeout item rest r hq => exact ((h.dequeue hq).reply 0x20 r).answered hproc rfl
  | answer _ code r hstage => exact (h.reply code r).answered hproc hstage
  | take rw d r hr =>
    obtain ⟨hlock, hpair, -, hboth⟩ := h.client
    exact ⟨h.config, h.buffer, h.decoder, h.queue, h.read, by simpa [hproc] using hlock, fun hp => hpair hp _ hproc,
      fun howed => hboth ⟨howed, by simp [hr]⟩, rfl⟩

theorem Answered.goesOn (h : Answered ctx u) {ctx' : Ctx} (hpair : u.client.pair = true → ctx' = .top 0x42)
    (hstage : stage.waits = false) : StateInv (setProc ctx' stage u) := by
  have hwaits : clientWaits (setProc ctx' stage u) = false := (clientWaits_of_proc rfl).trans hstage
  have hclient : ClientInv (setProc ctx' stage u) := by
    refine ⟨h.lock, fun hp p hmem => ?_, by simp [hwaits, h.notOwed, h.inbox], fun hb => h.notOwed hb.1⟩
    cases hmem
    exact hpair hp
  exact ⟨h.config, h.buffer, h.decoder, h.queue, h.read, hclient⟩

theorem Answered.returns (h : Answered ctx u) (r : CallResult) : StateInv (finishCall r u) := by
  have hwaits : clientWaits (finishCall r u) = false := clientWaits_of_no_proc rfl
  have hclient : ClientInv (finishCall r u) :=
    ⟨rfl, by simp, by simp [hwaits, h.notOwed, h.inbox], fun hb => h.notOwed hb.1⟩
  exact ⟨h.config, h.buffer, h.decoder, h.queue, h.read, hclient⟩

/-- Where an answered procedure goes, the invariants hold. -/
theorem ProcMoves.stateInv (hm : ProcMoves ctx u t) (h : Answered ctx u) : StateInv t := by
  cases hm with
  | returns r => exact h.returns r
  | goesOn st hst => exact h.goesOn h.pair hst
  | inner ctx' st hctx hst => exact h.goesOn (fun hp => absurd (h.pair hp) (hctx _)) hst

theorem HostTurn.stateInv {p : Proc} (ht : HostTurn p s t) (h : StateInv s) (hproc : s.client.proc = some p) :
    StateInv t := by
  cases ht with
  | idle => exact h
  | answered u _ hcommand hmoves => exact hmoves.stateInv (hcommand.answered h hproc)
  | pends rw d timeout hstage hd hq hne =>
    obtain ⟨-, hpair, -⟩ := h.client
    have hans := h.answered hproc (by rw [hstage]; rfl)
    exact ⟨h.config, h.buffer, h.decoder, h.queue, readInv_armRead hd hq hne nofun, hans.lock, fun hp q hmem => by
      cases hmem
      exact hans.pair hp, by simp [clientWaits], by simp [hans.inbox]⟩

/-- The turn of the host's procedure in progress keeps the invariants. -/
theorem StateInv.clientTurn (h : StateInv s) : StateInv (clientTurn s) := by
  obtain heq | ⟨p, hproc, hturn⟩ := clientTurn_cases s
  · rw [heq]
    exact h
  · exact hturn.stateInv h hproc

/-- A call begins only when no other procedure is in progress; under the lock of a pair only PEND begins (R224). -/
theorem StateInv.beginCall (h : StateInv s) {i : Instr} {p : Proc} (hpend : isPend i = true → p.ctx = .top 0x42)
    (hstage : p.stage.waits = false) : StateInv (beginCall i p s) := by
  obtain ⟨⟨hfree, hlock⟩, heq⟩ | ⟨-, heq⟩ := beginCall_cases i p s <;> rw [heq]
  · obtain ⟨hheld, -, hwaits, hboth⟩ := h.client
    rw [clientWaits_of_no_proc hfree] at hwaits
    refine StateInv.clientTurn ⟨h.config, h.buffer, h.decoder, h.queue, h.read, rfl, fun hp q hmem => ?_, ?_, hboth⟩
    · cases hmem
      have hpair : s.client.pair = true := hp
      obtain ⟨-, -, hi⟩ := hlock (by simp [hheld, hpair])
      exact hpend hi
    · rw [clientWaits_of_proc rfl, hstage]
      exact hwaits
  · exact h.moved s.port s.rxRest s.inp s.sched s.client.form s.client.tstate s.client.caller _

end

end Sys2Proof.Machine
end

section
/-! Every step keeps the invariants. -/

namespace Sys2Proof.Machine

section
variable {s t : State}

theorem StateInv.execQRead (h : StateInv s) {tHi tLo : Byte} (hs : execQRead tHi tLo s = .next t) : StateInv t := by
  unfold Machine.execQRead at hs
  split at hs
  · cases hs
    exact h.agents _ s.rxRest s.inp s.sched
  · rename_i hp
    have hread := h.qRead_commandPort (by simpa using hp) (timeoutOf tHi tLo)
    split at hs
    all_goals
      rename_i heq
      rw [heq] at hread
      cases hs
    · exact hread.reply _ _
    · exact hread

theorem StateInv.execRxChunk (h : StateInv s) {bytes : List Byte} (hs : execRxChunk bytes s = .next t) :
    StateInv t := by
  unfold Machine.execRxChunk at hs
  split at hs
  · cases hs
    exact h
  rename_i hlive
  obtain ⟨hd, hne⟩ := not_or.1 (mt (Bool.or_eq_true ..).mpr hlive)
  split at hs
  · cases hs
    exact h.agents s.port _ s.inp s.sched
  rename_i hatt
  split at hs
  · rename_i hsize
    cases hs
    have hpos : 1 ≤ bytes.length := List.length_pos_iff.2 (by simpa using hne)
    exact h.qPush (by simpa using hd) ⟨hpos, hsize, fun ha => absurd ha hatt⟩
  · cases hs

theorem StateInv.execDecFeed (h : StateInv s) {b : Byte} (hs : execDecFeed b s = .next t) : StateInv t := by
  unfold Machine.execDecFeed at hs
  split at hs
  · cases hs
    exact h
  rename_i hd
  split at hs
  · exact h.decStep (by simpa using hd) hs
  · cases hs

/-- Every instruction keeps the invariants. -/
theorem StateInv.exec (h : StateInv s) {i : Instr} (hs : exec i s = .next t) : StateInv t := by
  cases i with
  | qRead => exact h.execQRead hs
  | rxChunk => exact h.execRxChunk hs
  | decFeed => exact h.execDecFeed hs
  | crcClr | crcUpd | crcBuf =>
    cases hs
    exact (h.crc _).reply _ _
  | crcGet | packRs | packCan | unpackRs | unpackCan | isErr =>
    cases hs
    exact h.reply _ _
  | flush =>
    cases hs
    exact (h.flush _ _ _).reply _ _
  | txWrite =>
    cases hs
    exact (h.txWrite _).reply _ _
  | close =>
    cases hs
    exact h.enterTerminal.reply _ _
  | ioErr =>
    cases hs
    exact h.enterTerminal
  | tick =>
    cases hs
    exact h.tickTimer
  | pend =>
    cases hs
    exact h.beginCall (fun _ => rfl) rfl
  | connectTo | send | connectDevice =>
    cases hs
    exact h.beginCall nofun rfl
  | getRange d a b =>
    cases hs
    have hdraw : StateInv (drawSlots d a b s) := by
      obtain heq | heq := drawSlots_cases d a b s <;> rw [heq]
      · exact h.draws _
      · exact h
    exact hdraw.beginCall nofun rfl

theorem StateInv.runInstrs {is : List Instr} (h : StateInv s) (hs : runInstrs is s = .next t) : StateInv t := by
  induction is generalizing s with
  | nil =>
    cases hs
    exact h
  | cons i is ih =>
    unfold Machine.runInstrs at hs
    split at hs
    · rename_i hi
      exact ih (h.exec hi) hs
    · cases hs
    · cases hs

/-- A clock cycle performs instructions only (R262). -/
theorem StateInv.cycleTurn (h : StateInv s) {is : List Instr} (hs : cycleTurn is s = .next t) : StateInv t := by
  unfold Machine.cycleTurn at hs
  dsimp only at hs
  split at hs
  · exact (h.agents s.port s.rxRest _ s.sched).runInstrs hs
  split at hs
  · rename_i u hcalls
    have hu : StateInv u := (h.agents _ s.rxRest s.inp s.sched).runInstrs hcalls
    exact (hu.agents _ u.rxRest u.inp u.sched).runInstrs hs
  · cases hs
  · cases hs

theorem TurnOf.stateInv (ht : TurnOf s t) (h : StateInv s) : StateInv t := by
  cases ht with
  | idle => exact h
  | reset d more => exact stateInv_applyReset (s := { s with inp := more }) h.config d
  | delivery inp port form tstate caller => exact h.moved port s.rxRest inp s.sched form tstate caller s.client.waiting
  | cycle is more _ hs => exact (h.agents s.port s.rxRest more s.sched).cycleTurn hs
  | command i rest _ hs => exact (h.agents rest s.rxRest s.inp s.sched).exec hs
  | undefinedCode code rest => exact (h.agents rest s.rxRest s.inp s.sched).reply _ _
  | chunkByte b rest hs => exact (h.agents s.port rest s.inp s.sched).exec hs
  | event p a bytes left inp i _ _ hs => exact (h.agents s.port s.rxRest inp s.sched).exec hs
  | client => exact h.clientTurn
  | caller k c i _ _ hs =>
    have hs' := h.moved s.port s.rxRest s.inp s.sched s.client.form s.client.tstate c (s.client.waiting.eraseIdx k)
    have hu := hs'.exec hs
    exact hu.moved _ _ _ _ _ _ s.client.caller _

/-- Settles O46: each thing that an agent's turn can do keeps the invariants. -/
theorem stepKeepsInv : Obligations.StepKeepsInv := by
  intro s t h hs
  obtain ⟨ts, hturn⟩ := step_turnOf hs
  exact hturn.stateInv (h.agents s.port s.rxRest s.inp ts)

end

end Sys2Proof.Machine
end

section
/-! SUPPORT. What an instruction and a turn of the host's procedure leave of the registers: the accumulator (R21),
RXBUF and DREM (R22, R24, R25), the expectations (R32, R33). -/

namespace Sys2Proof.Machine

/-- The accumulator, RXBUF and DREM of `t` are those of `s`. -/
def SameWork (s t : State) : Prop := t.crc = s.crc ∧ t.rxbuf = s.rxbuf ∧ t.drem = s.drem

/-- The work registers, the expectations and whether they are written are those of `s`. -/
def SameRegisters (s t : State) : Prop :=
  SameWork s t ∧ t.expFrom = s.expFrom ∧ t.expTo = s.expTo ∧ t.expSet = s.expSet

theorem SameWork.refl (s : State) : SameWork s s := ⟨rfl, rfl, rfl⟩

theorem SameRegisters.refl (s : State) : SameRegisters s s := ⟨.refl s, rfl, rfl, rfl⟩

/-! ### The shared operations -/

theorem flush_sameWork (fl frm dst : Byte) (s : State) : SameWork s (flush fl frm dst s).1 := by
  obtain ⟨-, h⟩ | ⟨-, -, h⟩ | ⟨-, -, h⟩ := flush_cases fl frm dst s <;> rw [h] <;> exact .refl s

theorem txWrite_sameRegisters (bytes : List Byte) (s : State) : SameRegisters s (txWrite bytes s).1 := by
  obtain ⟨-, h⟩ | ⟨-, h⟩ := txWrite_cases bytes s <;> rw [h] <;> exact .refl s

theorem qRead_sameRegisters (who : RespChan) (t : Word) (s : State) : SameRegisters s (qRead who t s).1 := by
  obtain ⟨-, h⟩ | ⟨_, _, -, -, h⟩ | ⟨-, -, -, h⟩ | ⟨-, -, -, h⟩ := qRead_cases who t s <;> rw [h] <;>
    exact .refl s

theorem qPush_sameRegisters (item : List Byte) (s : State) : SameRegisters s (qPush item s) :=
  ⟨⟨qPush_crc s item, qPush_rxbuf s item, qPush_drem s item⟩, qPush_expFrom s item, qPush_expTo s item,
    qPush_expSet s item⟩

theorem tickTimer_sameRegisters (s : State) : SameRegisters s (tickTimer s) :=
  ⟨⟨tickTimer_crc s, tickTimer_rxbuf s, tickTimer_drem s⟩, tickTimer_expFrom s, tickTimer_expTo s,
    tickTimer_expSet s⟩

theorem enterTerminal_sameRegisters (s : State) : SameRegisters s (enterTerminal s) :=
  ⟨⟨enterTerminal_crc s, enterTerminal_rxbuf s, enterTerminal_drem s⟩, enterTerminal_expFrom s,
    enterTerminal_expTo s, enterTerminal_expSet s⟩

/-! ### The host's turns -/

theorem sameWork_hostUpdates : HostUpdates SameWork where
  refl := .refl
  trans := fun ⟨hc, hb, hd⟩ ⟨hc', hb', hd'⟩ => ⟨hc'.trans hc, hb'.trans hb, hd'.trans hd⟩
  reply _ _ s := .refl s
  client _ s := .refl s
  flush := flush_sameWork
  txWrite bytes s := (txWrite_sameRegisters bytes s).1
  qRead who t s := (qRead_sameRegisters who t s).1

section
variable {s t u : State} {i : Instr}

theorem HostCommand.sameRegisters {stage : Stage} (h : HostCommand s stage u)
    (hstage : ∀ target aux, stage ≠ .connectFlush target aux) : SameRegisters s u := by
  cases h with
  | flush target aux => exact absurd rfl (hstage target aux)
  | write frame => exact txWrite_sameRegisters frame s
  | dequeue | take | answer => exact .refl s

/-- Going on and returning write the host's own fields only. -/
theorem ProcMoves.sameRegisters {ctx : Ctx} (hm : ProcMoves ctx u t) (h : SameRegisters s u) : SameRegisters s t := by
  cases hm <;> exact h

theorem HostTurn.sameRegisters {p : Proc} (h : HostTurn p s t)
    (hstage : ∀ target aux, p.stage ≠ .connectFlush target aux) : SameRegisters s t := by
  cases h with
  | idle | pends => exact .refl s
  | answered u _ hcommand hmoves => exact hmoves.sameRegisters (hcommand.sameRegisters hstage)

/-- A turn of the host's procedure that issues no FLUSH leaves the registers. -/
theorem clientTurn_sameRegisters (h : ∀ ctx target aux, s.client.proc ≠ some ⟨ctx, .connectFlush target aux⟩) :
    SameRegisters s (clientTurn s) := by
  obtain heq | ⟨⟨ctx, stage⟩, hproc, hturn⟩ := clientTurn_cases s
  · rw [heq]
    exact .refl s
  have hstage : ∀ target aux, stage ≠ .connectFlush target aux := fun target aux hst => h ctx target aux (hst ▸ hproc)
  exact hturn.sameRegisters hstage

/-- The call of a procedure whose first command is no FLUSH leaves the registers. -/
theorem beginCall_sameRegisters {p : Proc} (h : ∀ target aux, p.stage ≠ .connectFlush target aux) :
    SameRegisters s (beginCall i p s) := by
  obtain ⟨-, heq⟩ | ⟨-, heq⟩ := beginCall_cases i p s <;> rw [heq]
  · exact clientTurn_sameRegisters
      (s := { s with client := { s.client with lock := true, holder := s.client.caller, proc := some p } })
      (fun ctx target aux hp => h target aux (congrArg Proc.stage (Option.some.inj hp)))
  · exact .refl s

/-! ### The instructions -/

/-- The commands that write the accumulator (R104, R105, R107). -/
def IsCrcWrite (i : Instr) : Prop := i = .crcClr ∨ (∃ b, i = .crcUpd b) ∨ ∃ bytes, i = .crcBuf bytes

/-- Which registers the instruction `i` leaves from `s` to `t`. -/
structure InstrFrame (i : Instr) (s t : State) : Prop where
  crc : ¬ IsCrcWrite i → t.crc = s.crc
  buffer : (∀ b, i ≠ .decFeed b) → t.rxbuf = s.rxbuf ∧ t.drem = s.drem
  expectations : ¬ IsFlush i → t.expFrom = s.expFrom ∧ t.expTo = s.expTo ∧ t.expSet = s.expSet

theorem SameRegisters.frame (h : SameRegisters s t) : InstrFrame i s t := by
  obtain ⟨⟨hcrc, hbuf⟩, hexp⟩ := h
  exact ⟨fun _ => hcrc, fun _ => hbuf, fun _ => hexp⟩

theorem SameWork.frame_of_isFlush (h : SameWork s t) (hi : IsFlush i) : InstrFrame i s t := by
  obtain ⟨hcrc, hbuf⟩ := h
  exact ⟨fun _ => hcrc, fun _ => hbuf, fun hn => absurd hi hn⟩

theorem frame_of_isCrcWrite (c : Word) (code : Byte) (r : Reply) (hi : IsCrcWrite i) :
    InstrFrame i s (reply code r { s with crc := c }) :=
  ⟨fun hn => absurd hi hn, fun _ => ⟨rfl, rfl⟩, fun _ => ⟨rfl, rfl, rfl⟩⟩

theorem execQRead_sameRegisters {tHi tLo : Byte} (hs : execQRead tHi tLo s = .next t) : SameRegisters s t := by
  have hread := qRead_sameRegisters .commandPort (timeoutOf tHi tLo) s
  unfold execQRead at hs
  split at hs
  · cases hs
    exact .refl s
  split at hs
  all_goals
    rename_i heq
    rw [heq] at hread
    cases hs
    exact hread

theorem execRxChunk_sameRegisters {bytes : List Byte} (hs : execRxChunk bytes s = .next t) : SameRegisters s t := by
  unfold execRxChunk at hs
  split at hs
  · cases hs
    exact .refl s
  split at hs
  · cases hs
    exact .refl s
  split at hs
  · cases hs
    exact qPush_sameRegisters bytes s
  · cases hs

theorem finishFrame_frame (s : State) : (finishFrame s).crc = s.crc ∧ (finishFrame s).expFrom = s.expFrom ∧
    (finishFrame s).expTo = s.expTo ∧ (finishFrame s).expSet = s.expSet := by
  obtain heq | ⟨item, heq⟩ := finishFrame_cases s <;> simp [heq]

/-- A byte fed to the decoder, with the item that it may push, leaves the accumulator and the expectations. -/
theorem decStep_frame {b : Byte} (hs : decStep b s = .next t) : InstrFrame (.decFeed b) s t := by
  obtain ⟨m, n, d, st, rfl | rfl⟩ := decStep_eq_next hs
  · exact ⟨fun _ => rfl, fun hn => absurd rfl (hn b), fun _ => ⟨rfl, rfl, rfl⟩⟩
  · obtain ⟨hcrc, hexp⟩ := finishFrame_frame { s with rxbuf := m, rxn := n, drem := d, dstate := st }
    exact ⟨fun _ => hcrc, fun hn => absurd rfl (hn b), fun _ => hexp⟩

theorem execDecFeed_frame {b : Byte} (hs : execDecFeed b s = .next t) : InstrFrame (.decFeed b) s t := by
  unfold execDecFeed at hs
  split at hs
  · cases hs
    exact (SameRegisters.refl s).frame
  split at hs
  · exact decStep_frame hs
  · cases hs

/-- The registers that each instruction leaves. -/
theorem exec_frame (hs : exec i s = .next t) : InstrFrame i s t := by
  cases i with
  | crcClr =>
    cases hs
    exact frame_of_isCrcWrite _ _ _ (.inl rfl)
  | crcUpd =>
    cases hs
    exact frame_of_isCrcWrite _ _ _ (.inr (.inl ⟨_, rfl⟩))
  | crcBuf =>
    cases hs
    exact frame_of_isCrcWrite _ _ _ (.inr (.inr ⟨_, rfl⟩))
  | crcGet | packRs | packCan | unpackRs | unpackCan | isErr =>
    cases hs
    exact SameRegisters.frame (.refl s)
  | qRead => exact (execQRead_sameRegisters hs).frame
  | rxChunk => exact (execRxChunk_sameRegisters hs).frame
  | decFeed => exact execDecFeed_frame hs
  | txWrite =>
    cases hs
    exact SameRegisters.frame (txWrite_sameRegisters _ s)
  | close =>
    cases hs
    exact SameRegisters.frame (enterTerminal_sameRegisters s)
  | ioErr =>
    cases hs
    exact SameRegisters.frame (enterTerminal_sameRegisters s)
  | tick =>
    cases hs
    exact (tickTimer_sameRegisters s).frame
  | send | pend =>
    cases hs
    exact (beginCall_sameRegisters (by simp)).frame
  | flush fl frm dst =>
    cases hs
    exact SameWork.frame_of_isFlush (flush_sameWork fl frm dst s) (.inl ⟨_, _, _, rfl⟩)
  | connectTo =>
    cases hs
    exact (sameWork_hostUpdates.beginCall _ _ s).frame_of_isFlush (.inr (.inl ⟨_, _, rfl⟩))
  | getRange d a b =>
    cases hs
    have hdraw : SameWork s (drawSlots d a b s) :=
      ⟨drawSlots_crc s d a b, drawSlots_rxbuf s d a b, drawSlots_drem s d a b⟩
    exact (sameWork_hostUpdates.trans hdraw (sameWork_hostUpdates.beginCall _ _ _)).frame_of_isFlush
      (.inr (.inr (.inl ⟨_, _, _, rfl⟩)))
  | connectDevice =>
    cases hs
    exact (sameWork_hostUpdates.beginCall _ _ s).frame_of_isFlush (.inr (.inr (.inr rfl)))

end

end Sys2Proof.Machine
end

section
/-! What only some steps write: the accumulator, RXBUF and DREM, the expectations, DEAD. -/

namespace Sys2Proof.Machine

/-- An event or a call decodes to an instruction of its own port (R89, R90). -/
theorem port_of_decode {p : Port} {a : CallArgs} {bytes left : List Byte} {i : Instr}
    (hd : decode p a bytes = .ok i left) (hp : p ≠ .command) : i.port = p := by
  cases p with
  | command => exact absurd rfl hp
  | rx =>
    obtain ⟨code, r, -, hnext⟩ := takeByte_eq_ok hd
    split at hnext
    · obtain ⟨payload, -, -, rfl⟩ := takePayload_eq_ok hnext
      rfl
    · obtain ⟨b, rest, -, hb⟩ := takeByte_eq_ok hnext
      cases hb
      rfl
    · cases hnext
      rfl
    · cases hnext
  | tick | call =>
    obtain ⟨code, r, -, hnext⟩ := takeByte_eq_ok hd
    split at hnext <;> cases hnext <;> rfl

theorem IsCrcWrite.port {i : Instr} (h : IsCrcWrite i) : i.port = .command := by
  obtain rfl | ⟨b, rfl⟩ | ⟨bytes, rfl⟩ := h <;> rfl

/-- Settles O14: of the instructions, by the registers each leaves; of the steps, by what a turn can do, where the RX
and tick inputs and the callers bring no command. -/
theorem onlyChecksumCommandsWriteCrc : Obligations.OnlyChecksumCommandsWriteCrc := by
  refine ⟨?instr, fun s => (sameWork_hostUpdates.clientTurn s).1, ?step⟩
  case instr =>
    intro i s t hclr hupd hbuf hs
    refine (exec_frame hs).crc ?_
    rintro (h | ⟨b, h⟩ | ⟨bytes, h⟩)
    · exact hclr h
    · exact hupd b h
    · exact hbuf bytes h
  case step =>
    intro s t hcalls hs
    have hother : ∀ i, i.port ≠ .command → ¬ IsCrcWrite i := fun i hi hw => hi hw.port
    obtain ⟨ts, hturn⟩ := step_turnOf hs
    cases hturn with
    | idle | delivery | undefinedCode => exact .inl rfl
    | reset d more hinp => exact .inr (.inl ⟨d, more, hinp, rfl, rfl⟩)
    | cycle is more hinp => exact .inr (.inr (.inl ⟨is, more, hinp⟩))
    | client => exact .inl (sameWork_hostUpdates.clientTurn _).1
    | command i rest hd hexec =>
      by_cases hi : IsCrcWrite i
      · exact .inr (.inr (.inr ⟨i, rest, hd, hi⟩))
      · exact .inl ((exec_frame hexec).crc hi)
    | chunkByte b rest hexec => exact .inl ((exec_frame hexec).crc (hother _ nofun))
    | event p a bytes left inp i hp hd hexec =>
      exact .inl ((exec_frame hexec).crc (hother i (port_of_decode hd hp ▸ hp)))
    | caller k c i hw _ hexec =>
      have hport : i.port = .call := hcalls _ (List.mem_of_getElem? hw)
      exact .inl ((exec_frame hexec).crc (hother i (by simp [hport])))

/-- Settles O27: no other instruction and no host turn writes RXBUF or DREM, and a byte fed is stored at RXN or not at
all, where the writing of one byte leaves every other offset. -/
theorem onlyDecFeedWritesTheBuffer : Obligations.OnlyDecFeedWritesTheBuffer := by
  refine ⟨?instr, ?client, ?feed⟩
  case instr =>
    intro i s t hi hs
    obtain ⟨hbuf, hdrem⟩ := (exec_frame hs).buffer hi
    exact ⟨fun a => by rw [hbuf], hdrem⟩
  case client =>
    intro s
    obtain ⟨-, hbuf, hdrem⟩ := sameWork_hostUpdates.clientTurn s
    exact ⟨fun a => by rw [hbuf], hdrem⟩
  case feed =>
    intro b s t a h hs ha
    have hbuf : t.rxbuf = s.rxbuf ∨ t.rxbuf = writeByte s.rxbuf s.rxn.toNat b := by
      cases hd : s.dead with
      | true =>
        rw [execDecFeed_of_dead hd] at hs
        cases hs
        exact .inl rfl
      | false =>
        cases he : s.expSet with
        | true =>
          rw [execDecFeed_of_live hd he] at hs
          exact decStep_rxbuf h.decoder hs
        | false =>
          rw [execDecFeed_of_unwritten hd he] at hs
          cases hs
    obtain heq | heq := hbuf <;> rw [heq]
    rw [readByte_writeByte h.buffer.1, if_neg ha]

/-- Settles O34: FLUSH and the calls that begin with it apart, no instruction writes the expectations, and of the host's
turns only the one whose command is a FLUSH. -/
theorem onlyFlushWritesTheExpectations : Obligations.OnlyFlushWritesTheExpectations := by
  refine ⟨fun i s t hi hs => (exec_frame hs).expectations hi, fun s hstage => ?_⟩
  obtain ⟨-, hfrom, hto, hset⟩ := clientTurn_sameRegisters hstage
  exact ⟨hfrom, hto, hset⟩

/-- From a dead `s` to `t` the block stays dead and emits nothing. -/
def StaysDead (s t : State) : Prop := s.dead = true → t.dead = true ∧ t.tx = s.tx

theorem staysDead_updates : StepUpdates StaysDead where
  refl _ hd := ⟨hd, rfl⟩
  trans hst htu hd := by
    obtain ⟨hdead, htx⟩ := hst hd
    obtain ⟨hdead', htx'⟩ := htu hdead
    exact ⟨hdead', htx'.trans htx⟩
  reply _ _ _ hd := ⟨hd, rfl⟩
  client _ _ hd := ⟨hd, rfl⟩
  flush fl frm dst s hd := by
    obtain ⟨-, h⟩ | ⟨-, -, h⟩ | ⟨-, -, h⟩ := flush_cases fl frm dst s <;> rw [h] <;> exact ⟨hd, rfl⟩
  txWrite bytes s hd := by
    obtain ⟨-, h⟩ | ⟨hlive, -⟩ := txWrite_cases bytes s
    · rw [h]
      exact ⟨hd, rfl⟩
    · rw [hd] at hlive
      cases hlive
  qRead who t s hd := by
    obtain ⟨-, h⟩ | ⟨_, _, -, -, h⟩ | ⟨-, -, -, h⟩ | ⟨-, -, -, h⟩ := qRead_cases who t s <;> rw [h] <;>
      exact ⟨hd, rfl⟩
  crc _ _ hd := ⟨hd, rfl⟩
  decoder _ _ _ _ _ hd := ⟨hd, rfl⟩
  qPush item s hd := ⟨(qPush_dead s item).trans hd, qPush_tx s item⟩
  tickTimer s hd := ⟨(tickTimer_dead s).trans hd, tickTimer_tx s⟩
  enterTerminal s _ := ⟨enterTerminal_dead s, enterTerminal_tx s⟩
  draws _ _ hd := ⟨hd, rfl⟩
  agents _ _ _ _ _ hd := ⟨hd, rfl⟩

/-- Settles O39: no elementary update but the reset input clears DEAD, and none emits under it; the queue and the
pending read of a dead block are the invariants' matter (R39 (c), R265). -/
theorem deadIsClearedByResetOnly : Obligations.DeadIsClearedByResetOnly := by
  refine ⟨fun s t hd hs => ?sticky, fun s t h hd hs => ?silent⟩
  case sticky =>
    obtain hstays | ⟨ts, d, more, hinp, rfl⟩ := staysDead_updates.step hs
    · exact .inl (hstays hd).1
    · exact .inr ⟨d, more, hinp, rfl, rfl⟩
  case silent =>
    obtain hstays | ⟨ts, d, more, -, rfl⟩ := staysDead_updates.step hs
    · obtain ⟨hdead, htx⟩ := hstays hd
      obtain ⟨-, -, -, hempty⟩ := (stepKeepsInv s t h hs).read
      exact ⟨htx, hempty hdead⟩
    · exact ⟨rfl, rfl, rfl⟩

end Sys2Proof.Machine
end

section
/-! What has been answered and what has been emitted is never taken back (R61, R84, R194). -/

namespace Sys2Proof.Machine

/-- Both outputs of `t` begin with those of `s`. -/
def OutputsGrow (s t : State) : Prop := s.resp <+: t.resp ∧ s.tx <+: t.tx

theorem OutputsGrow.refl (s : State) : OutputsGrow s s := ⟨List.prefix_rfl, List.prefix_rfl⟩

theorem OutputsGrow.trans {s t u : State} (hst : OutputsGrow s t) (htu : OutputsGrow t u) : OutputsGrow s u := by
  obtain ⟨hresp, htx⟩ := hst
  obtain ⟨hresp', htx'⟩ := htu
  exact ⟨hresp.trans hresp', htx.trans htx'⟩

/-- The completion of a read appends one response, or none when it is owed to nobody. -/
theorem completeRead_outputsGrow (r : Reply) (s : State) : OutputsGrow s (completeRead r s) := by
  refine ⟨?_, List.prefix_rfl⟩
  rw [completeRead_resp]
  split
  · exact List.prefix_rfl
  · exact List.prefix_append ..

theorem outputsGrow_updates : StepUpdates OutputsGrow where
  refl := .refl
  trans := .trans
  reply _ _ _ := ⟨List.prefix_append .., List.prefix_rfl⟩
  client _ s := .refl s
  flush fl frm dst s := by
    obtain ⟨-, h⟩ | ⟨-, -, h⟩ | ⟨-, -, h⟩ := flush_cases fl frm dst s <;> rw [h] <;> exact .refl s
  txWrite bytes s := by
    obtain ⟨-, h⟩ | ⟨-, h⟩ := txWrite_cases bytes s <;> rw [h]
    · exact .refl s
    · exact ⟨List.prefix_rfl, List.prefix_append ..⟩
  qRead who t s := by
    obtain ⟨-, h⟩ | ⟨_, _, -, -, h⟩ | ⟨-, -, -, h⟩ | ⟨-, -, -, h⟩ := qRead_cases who t s <;> rw [h] <;>
      exact .refl s
  crc _ s := .refl s
  decoder _ _ _ _ s := .refl s
  qPush item s := by
    obtain ⟨-, h⟩ | ⟨-, -, h⟩ | ⟨-, -, h⟩ := qPush_cases item s <;> rw [h]
    · exact completeRead_outputsGrow _ s
    · exact .refl s
    · exact .refl s
  tickTimer s := by
    obtain ⟨-, h⟩ | ⟨-, -, h⟩ | ⟨-, -, h⟩ := tickTimer_cases s <;> rw [h]
    · exact .refl s
    · exact .refl s
    · exact completeRead_outputsGrow _ { s with rdTmr := s.rdTmr - 1 }
  enterTerminal s := by
    obtain ⟨-, h⟩ | ⟨-, h⟩ := enterTerminal_cases s <;> rw [h]
    · exact completeRead_outputsGrow _ { s with dead := true, q := [], rxn := 0, dstate := .awaitFrom }
    · exact .refl s
  draws _ s := .refl s
  agents _ _ _ _ s := .refl s

/-- Settles O41: every elementary update appends to the outputs or leaves them, and so does the reset input, which sends
nothing and takes nothing back (R292). -/
theorem outputsAreAppendOnly : Obligations.OutputsAreAppendOnly := by
  intro s t hs
  obtain hgrow | ⟨ts, d, more, -, rfl⟩ := outputsGrow_updates.step hs
  · exact hgrow
  · exact OutputsGrow.refl s

end Sys2Proof.Machine
end

section
/-! The queue is first in, first out (R61, R198): what an instruction and a turn of the host's procedure make of it. -/

namespace Sys2Proof.Machine

section
variable {s t : State} {b : Byte}

/-- The queue of `t` is the queue of `s` with items removed at the head. -/
def Dequeues (s t : State) : Prop := ∃ k, t.q = s.q.drop k

/-- The queue of `t` is the queue of `s` with items removed at the head and at most one added at the tail. -/
def QueueMoves (s t : State) : Prop := ∃ k new, t.q = s.q.drop k ++ new ∧ new.length ≤ 1

theorem Dequeues.of_q_eq (h : t.q = s.q) : Dequeues s t := ⟨0, h⟩

theorem Dequeues.of_q_nil (h : t.q = []) : Dequeues s t := ⟨s.q.length, by rw [h, List.drop_length]⟩

theorem Dequeues.trans {u : State} (hst : Dequeues s t) (htu : Dequeues t u) : Dequeues s u := by
  obtain ⟨k, hk⟩ := hst
  obtain ⟨l, hl⟩ := htu
  exact ⟨k + l, by rw [hl, hk, List.drop_drop]⟩

theorem Dequeues.queueMoves (h : Dequeues s t) : QueueMoves s t := by
  obtain ⟨k, hk⟩ := h
  exact ⟨k, [], by rw [hk, List.append_nil], Nat.zero_le _⟩

theorem enterTerminal_dequeues (s : State) : Dequeues s (enterTerminal s) := .of_q_nil (enterTerminal_q s)

/-- FLUSH empties the queue, Q.READ takes its head, and the host's other commands leave it. -/
theorem dequeues_hostUpdates : HostUpdates Dequeues where
  refl _ := .of_q_eq rfl
  trans := .trans
  reply _ _ _ := .of_q_eq rfl
  client _ _ := .of_q_eq rfl
  flush fl frm dst s := by
    obtain ⟨-, h⟩ | ⟨-, -, h⟩ | ⟨-, -, h⟩ := flush_cases fl frm dst s <;> rw [h]
    · exact .of_q_eq rfl
    · exact .of_q_eq rfl
    · exact .of_q_nil rfl
  txWrite bytes s := by
    obtain ⟨-, h⟩ | ⟨-, h⟩ := txWrite_cases bytes s <;> rw [h] <;> exact .of_q_eq rfl
  qRead who t s := by
    obtain ⟨-, h⟩ | ⟨item, rest, -, hq, h⟩ | ⟨-, -, -, h⟩ | ⟨-, -, -, h⟩ := qRead_cases who t s <;> rw [h]
    · exact .of_q_eq rfl
    · exact ⟨1, by rw [hq, List.drop_one, List.tail_cons]⟩
    · exact .of_q_eq rfl
    · exact .of_q_eq rfl

/-! ### The instructions that push -/

/-- A push answers the pending read, or adds the item at the tail, where a full queue loses its head (R181). -/
theorem qPush_queueMoves (item : List Byte) (s : State) : QueueMoves s (qPush item s) := by
  obtain ⟨-, h⟩ | ⟨-, -, h⟩ | ⟨-, -, h⟩ := qPush_cases item s <;> rw [h]
  · exact (Dequeues.of_q_eq rfl).queueMoves
  · exact ⟨1, [item], rfl, le_rfl⟩
  · exact ⟨0, [item], rfl, le_rfl⟩

theorem finishFrame_queueMoves (s : State) : QueueMoves s (finishFrame s) := by
  obtain h | ⟨item, h⟩ := finishFrame_cases s <;> rw [h]
  · exact (Dequeues.of_q_eq rfl).queueMoves
  · exact qPush_queueMoves item (clearDecoder s)

theorem decStep_queueMoves (hs : decStep b s = .next t) : QueueMoves s t := by
  obtain ⟨m, n, d, st, rfl | rfl⟩ := decStep_eq_next hs
  · exact (Dequeues.of_q_eq rfl).queueMoves
  · exact finishFrame_queueMoves { s with rxbuf := m, rxn := n, drem := d, dstate := st }

theorem execDecFeed_queueMoves (hs : execDecFeed b s = .next t) : QueueMoves s t := by
  unfold execDecFeed at hs
  split at hs
  · cases hs
    exact (Dequeues.of_q_eq rfl).queueMoves
  split at hs
  · exact decStep_queueMoves hs
  · cases hs

theorem execRxChunk_queueMoves {bytes : List Byte} (hs : execRxChunk bytes s = .next t) : QueueMoves s t := by
  unfold execRxChunk at hs
  split at hs
  · cases hs
    exact (Dequeues.of_q_eq rfl).queueMoves
  split at hs
  · cases hs
    exact (Dequeues.of_q_eq rfl).queueMoves
  split at hs
  · cases hs
    exact qPush_queueMoves bytes s
  · cases hs

/-! ### The other instructions -/

theorem execQRead_dequeues {tHi tLo : Byte} (hs : execQRead tHi tLo s = .next t) : Dequeues s t := by
  have hread := dequeues_hostUpdates.qRead .commandPort (timeoutOf tHi tLo) s
  unfold execQRead at hs
  split at hs
  · cases hs
    exact .of_q_eq rfl
  split at hs
  all_goals
    rename_i heq
    rw [heq] at hread
    cases hs
    exact hread

/-- The instructions that push are RX.CHUNK and DEC.FEED; every other one only removes. -/
theorem exec_dequeues {i : Instr} (hi : ¬ IsPush i) (hs : exec i s = .next t) : Dequeues s t := by
  have hupdates := dequeues_hostUpdates
  cases i with
  | rxChunk bytes => exact absurd (.inl ⟨bytes, rfl⟩) hi
  | decFeed b => exact absurd (.inr ⟨b, rfl⟩) hi
  | qRead => exact execQRead_dequeues hs
  | crcClr | crcUpd | crcBuf | crcGet | packRs | packCan | unpackRs | unpackCan | isErr =>
    cases hs
    exact .of_q_eq rfl
  | flush =>
    cases hs
    exact hupdates.trans (hupdates.flush _ _ _ s) (hupdates.reply _ _ _)
  | txWrite =>
    cases hs
    exact hupdates.trans (hupdates.txWrite _ s) (hupdates.reply _ _ _)
  | close =>
    cases hs
    exact hupdates.trans (enterTerminal_dequeues s) (hupdates.reply _ _ _)
  | ioErr =>
    cases hs
    exact enterTerminal_dequeues s
  | tick =>
    cases hs
    exact .of_q_eq (tickTimer_q s)
  | connectTo | send | pend | connectDevice =>
    cases hs
    exact hupdates.beginCall _ _ s
  | getRange d a b =>
    cases hs
    exact hupdates.trans (.of_q_eq (drawSlots_q s d a b)) (hupdates.beginCall _ _ _)

theorem exec_queueMoves {i : Instr} (hs : exec i s = .next t) : QueueMoves s t := by
  by_cases hi : IsPush i
  · obtain ⟨bytes, rfl⟩ | ⟨b, rfl⟩ := hi
    · exact execRxChunk_queueMoves hs
    · exact execDecFeed_queueMoves hs
  · exact (exec_dequeues hi hs).queueMoves

end

/-- Settles O40: the two pushing instructions add at most one item at the tail, the others and the host's turns add
none. -/
theorem queueIsFirstInFirstOut : Obligations.QueueIsFirstInFirstOut :=
  ⟨fun _ _ _ => exec_queueMoves, dequeues_hostUpdates.clientTurn⟩

end Sys2Proof.Machine
end

section
/-! No step of a state with the invariants faults (R53, R160): the one fault is a byte stored outside RXBUF, and the
decoder's invariant keeps RXN inside it. -/

namespace Sys2Proof.Machine

section
variable {s : State} {r : Fault}

theorem decStep_ne_fault {b : Byte} (h : DecoderInv s) : decStep b s ≠ .fault r := by
  have hlt := h.rxn_lt
  cases hst : s.dstate with
  | awaitFrom =>
    rw [decStep_awaitFrom hst]
    nofun
  | awaitTo =>
    rw [decStep_awaitTo hst]
    nofun
  | awaitLen =>
    rw [decStep_awaitLen hst]
    nofun
  | awaitData =>
    rw [decStep_awaitData hst hlt]
    nofun
  | awaitCrc1 =>
    rw [decStep_awaitCrc1 hst hlt]
    nofun
  | awaitCrc2 =>
    rw [decStep_awaitCrc2 hst hlt]
    nofun

/-! ### The instructions -/

theorem execDecFeed_ne_fault {b : Byte} (h : DecoderInv s) : execDecFeed b s ≠ .fault r := by
  unfold execDecFeed
  split
  · nofun
  split
  · exact decStep_ne_fault h
  · nofun

theorem execRxChunk_ne_fault (bytes : List Byte) (s : State) : execRxChunk bytes s ≠ .fault r := by
  unfold execRxChunk
  split
  · nofun
  split
  · nofun
  split <;> nofun

theorem execQRead_ne_fault (tHi tLo : Byte) (s : State) : execQRead tHi tLo s ≠ .fault r := by
  unfold execQRead
  split
  · nofun
  split <;> nofun

/-- Of the instructions only DEC.FEED can fault. -/
theorem exec_ne_fault (h : StateInv s) (i : Instr) : exec i s ≠ .fault r := by
  cases i with
  | decFeed => exact execDecFeed_ne_fault h.decoder
  | rxChunk => exact execRxChunk_ne_fault _ s
  | qRead => exact execQRead_ne_fault _ _ s
  | crcClr | crcUpd | crcGet | crcBuf | packRs | packCan | unpackRs | unpackCan => nofun
  | flush | txWrite | close | isErr | ioErr | tick => nofun
  | connectTo | send | pend | getRange | connectDevice => nofun

/-- Each instruction of a sequence runs in a state with the invariants. -/
theorem runInstrs_ne_fault (h : StateInv s) (is : List Instr) : runInstrs is s ≠ .fault r := by
  induction is generalizing s with
  | nil => nofun
  | cons i is ih =>
    unfold runInstrs
    split
    · rename_i hi
      exact ih (h.exec hi)
    · rename_i hi
      exact absurd hi (exec_ne_fault h i)
    · nofun

/-! ### The turns -/

theorem portTurn_ne_fault (h : StateInv s) : portTurn s ≠ .fault r := by
  unfold portTurn
  split
  · exact exec_ne_fault (h.agents _ s.rxRest s.inp s.sched) _
  · nofun
  · nofun

theorem rxTurn_ne_fault (h : StateInv s) : rxTurn s ≠ .fault r := by
  unfold rxTurn
  split
  · nofun
  · exact exec_ne_fault (h.agents s.port _ s.inp s.sched) _

theorem callerTurn_ne_fault (h : StateInv s) (k : Nat) : callerTurn k s ≠ .fault r := by
  unfold callerTurn
  split
  · nofun
  rename_i c i _
  have hcalls := h.moved s.port s.rxRest s.inp s.sched s.client.form s.client.tstate c (s.client.waiting.eraseIdx k)
  split
  · split
    · nofun
    · rename_i hi
      exact absurd hi (exec_ne_fault hcalls i)
    · nofun
  · nofun

theorem cycleTurn_ne_fault (h : StateInv s) (is : List Instr) : cycleTurn is s ≠ .fault r := by
  unfold cycleTurn
  dsimp only
  split
  · exact runInstrs_ne_fault (h.agents s.port s.rxRest _ s.sched) _
  have hport := h.agents (s.port ++ (is.filter fun i => i.port = .command).flatMap encode) s.rxRest s.inp s.sched
  split
  · rename_i u hcalls
    have hu : StateInv u := hport.runInstrs hcalls
    exact runInstrs_ne_fault (hu.agents _ u.rxRest u.inp u.sched) _
  · rename_i hcalls
    exact absurd hcalls (runInstrs_ne_fault hport _)
  · nofun

theorem inputTurn_ne_fault (h : StateInv s) : inputTurn s ≠ .fault r := by
  unfold inputTurn
  split
  case h_1 | h_2 | h_3 | h_4 | h_6 => nofun
  case h_5 =>
    split
    · exact rxTurn_ne_fault h
    · exact cycleTurn_ne_fault (h.agents s.port s.rxRest _ s.sched) _
  case h_7 =>
    split
    · exact rxTurn_ne_fault h
    split
    · exact exec_ne_fault (h.agents s.port s.rxRest _ s.sched) _
    · nofun
    · nofun

theorem turn_ne_fault (h : StateInv s) (k : Turn) : turn k s ≠ .fault r := by
  cases k with
  | input => exact inputTurn_ne_fault h
  | port => exact portTurn_ne_fault h
  | rx => exact rxTurn_ne_fault h
  | client => nofun
  | caller k => exact callerTurn_ne_fault h k

end

/-- Settles O47: the turn that the step gives runs in a state with the invariants. -/
theorem invStepNeverFaults : Obligations.InvStepNeverFaults := by
  intro s r h
  cases hsched : s.sched with
  | nil =>
    rw [step_of_no_sched hsched]
    exact turn_ne_fault h _
  | cons k ts =>
    rw [step_of_sched hsched]
    exact turn_ne_fault (h.agents s.port s.rxRest s.inp ts) k

end Sys2Proof.Machine
end

section
/-! A decoder and the encoder agree (R85 to R90): an encoding decodes to its instruction, and what decodes is the
encoding of what it decodes to. -/

namespace Sys2Proof

/-! ### What decodes is an encoding -/

/-- What the decoder `f` answers for the bytes after `front` is an instruction of the port `p` that can be spelled, and
`front` and those bytes are its encoding and the bytes left. -/
def ReadsEncodings (p : Port) (front : List Byte) (f : List Byte → Decoded) : Prop :=
  ∀ (bytes rest : List Byte) (i : Instr), f bytes = .ok i rest →
    encode i ++ rest = front ++ bytes ∧ i.port = p ∧ i.WellFormed

section
variable {p : Port} {front : List Byte}

theorem readsEncodings_ok {i : Instr} (he : encode i = front) (hp : i.port = p) (hw : i.WellFormed) :
    ReadsEncodings p front (.ok i) := by
  intro bytes rest j h
  cases h
  exact ⟨by rw [he], hp, hw⟩

theorem readsEncodings_undefinedCode (code : Byte) : ReadsEncodings p front (.undefinedCode code) := by
  intro bytes rest i h
  cases h

theorem readsEncodings_takeByte {next : Byte → List Byte → Decoded}
    (h : ∀ b, ReadsEncodings p (front ++ [b]) (next b)) : ReadsEncodings p front (takeByte · next) := by
  intro bytes rest i hd
  obtain ⟨b, r, rfl, hnext⟩ := takeByte_eq_ok hd
  simpa using h b r rest i hnext

theorem readsEncodings_takePayload {mk : List Byte → Instr}
    (h : ∀ payload, payloadOk payload → encode (mk payload) = front ++ countByte payload :: payload ∧
      (mk payload).port = p ∧ (mk payload).WellFormed) : ReadsEncodings p front (takePayload · mk) := by
  intro bytes rest i hd
  obtain ⟨payload, hlen, rfl, rfl⟩ := takePayload_eq_ok hd
  obtain ⟨he, hp, hw⟩ := h payload hlen
  exact ⟨by simp [he], hp, hw⟩

end

theorem readsEncodings_decodeOperands (op : Byte) : ReadsEncodings .command [op] (decodeOperands op) := by
  unfold decodeOperands
  split
  case h_1 | h_3 | h_12 | h_13 => exact readsEncodings_ok rfl rfl trivial
  case h_2 => exact readsEncodings_takeByte fun _ => readsEncodings_ok rfl rfl trivial
  case h_4 | h_11 => exact readsEncodings_takePayload fun _ h => ⟨rfl, rfl, h⟩
  case h_5 =>
    exact readsEncodings_takeByte fun _ => readsEncodings_takeByte fun _ => readsEncodings_takeByte fun _ =>
      readsEncodings_takeByte fun _ => readsEncodings_takePayload fun _ h => ⟨rfl, rfl, h⟩
  case h_6 =>
    exact readsEncodings_takeByte fun _ => readsEncodings_takeByte fun _ => readsEncodings_takeByte fun _ =>
      readsEncodings_takePayload fun _ h => ⟨rfl, rfl, h⟩
  case h_7 =>
    exact readsEncodings_takeByte fun _ => readsEncodings_takeByte fun _ =>
      readsEncodings_takePayload fun _ h => ⟨rfl, rfl, h⟩
  case h_8 =>
    exact readsEncodings_takeByte fun _ => readsEncodings_takePayload fun _ h => ⟨rfl, rfl, h⟩
  case h_9 =>
    exact readsEncodings_takeByte fun _ => readsEncodings_takeByte fun _ => readsEncodings_ok rfl rfl trivial
  case h_10 =>
    exact readsEncodings_takeByte fun _ => readsEncodings_takeByte fun _ => readsEncodings_takeByte fun _ =>
      readsEncodings_ok rfl rfl trivial
  case h_14 => exact readsEncodings_undefinedCode op

theorem readsEncodings_decodeCommand : ReadsEncodings .command [] decodeCommand :=
  readsEncodings_takeByte readsEncodings_decodeOperands

theorem readsEncodings_decodeRx : ReadsEncodings .rx [] decodeRx := by
  refine readsEncodings_takeByte fun code => ?_
  split
  case h_1 => exact readsEncodings_takePayload fun _ h => ⟨rfl, rfl, h⟩
  case h_2 => exact readsEncodings_takeByte fun _ => readsEncodings_ok rfl rfl trivial
  case h_3 => exact readsEncodings_ok rfl rfl trivial
  case h_4 => exact readsEncodings_undefinedCode code

theorem readsEncodings_decodeTick : ReadsEncodings .tick [] decodeTick := by
  refine readsEncodings_takeByte fun code => ?_
  split
  case h_1 => exact readsEncodings_ok rfl rfl trivial
  case h_2 => exact readsEncodings_undefinedCode code

theorem readsEncodings_decodeCall (a : CallArgs) : ReadsEncodings .call [] (decodeCall a) := by
  refine readsEncodings_takeByte fun code => ?_
  split
  case h_6 => exact readsEncodings_undefinedCode code
  all_goals exact readsEncodings_ok rfl rfl trivial

theorem readsEncodings_decode (p : Port) (a : CallArgs) : ReadsEncodings p [] (decode p a) := by
  cases p with
  | command => exact readsEncodings_decodeCommand
  | rx => exact readsEncodings_decodeRx
  | tick => exact readsEncodings_decodeTick
  | call => exact readsEncodings_decodeCall a

/-- Settles O2: every branch of the decoder answers an instruction whose encoding is the bytes it has read. -/
theorem encodeOfDecode : Obligations.EncodeOfDecode :=
  fun p a => readsEncodings_decode p a

/-! ### An encoding decodes -/

/-- Settles O1: a command by `decodeCommand_encode`, a chunk by its counted payload, and the other events and the calls
by their code. -/
theorem decodeOfEncode : Obligations.DecodeOfEncode := by
  intro i rest hw
  cases i with
  | crcClr | crcUpd | crcGet | crcBuf | packRs | packCan | unpackRs | unpackCan | qRead | flush | txWrite | close
  | isErr => exact decodeCommand_encode hw rfl rest
  | rxChunk bytes => exact takePayload_countByte bytes rest .rxChunk hw
  | decFeed | ioErr | tick => rfl
  | connectTo | send | pend | getRange | connectDevice => rfl

/-! ### Words of the opcode table -/

theorem portOfCode_code (i : Instr) : portOfCode i.code = i.port := by cases i <;> rfl

/-- A word whose bytes begin with the encoding of an instruction decodes to it, at the port that its code names. -/
theorem decodeTableWord_of_encode {i : Instr} {nbits w : Nat} (hw : i.WellFormed) (ha : i.callArgs = {})
    (h : encode i <+: wordBytes nbits w) : decodeTableWord nbits w = some i := by
  obtain ⟨rest, hbytes⟩ := h
  have hport : wordPort nbits w = i.port := by
    rw [wordPort, ← hbytes]
    exact portOfCode_code i
  have hdecode : decode i.port {} (wordBytes nbits w) = .ok i rest := by
    rw [← ha, ← hbytes]
    exact decodeOfEncode i rest hw
  simp only [decodeTableWord, hport, hdecode]

/-- Settles O3: the bytes of each word begin with the encoding of its instruction; 0x05 is no opcode. -/
theorem tableWordsDecode : Obligations.TableWordsDecode := by
  refine ⟨decodeTableWord_of_encode trivial rfl ?_, decodeTableWord_of_encode trivial rfl ?_,
    decodeTableWord_of_encode (Nat.zero_le _) rfl ?_, decodeTableWord_of_encode trivial rfl ?_,
    decodeTableWord_of_encode trivial rfl ?_, decodeTableWord_of_encode trivial rfl ?_,
    decodeTableWord_of_encode trivial rfl ?_, decodeTableWord_of_encode trivial rfl ?_, ?undefined⟩
  case undefined => rfl
  all_goals decide +kernel

end Sys2Proof
end

section
/-! Reserved opcodes (R92). -/

namespace Sys2Proof.Machine

theorem portTurn_of_undefined {s : State} {code : Byte} {rest : List Byte}
    (h : decodeCommand s.port = .undefinedCode code rest) :
    portTurn s = .next (reply code (raise .ill) { s with port := rest }) := by
  simp only [portTurn, fetchPort, h]

/-- Settles O4: a reserved opcode is in no row of the command port's table, and the port's turn answers it. -/
theorem reservedOpcodeAnswersIll : Obligations.ReservedOpcodeAnswersIll := by
  intro s ts code rest hcode hs hport
  have hd : decodeCommand s.port = .undefinedCode code rest := by
    rw [hport]
    refine decodeOperands_undefined rest fun n hn => ?_
    simp only [List.mem_cons, List.not_mem_nil, or_false] at hn
    omega
  rw [step_of_sched hs]
  exact portTurn_of_undefined hd

end Sys2Proof.Machine
end

section
/-! SUPPORT. The checksum as a linear map (spec/40_checksum.md R108): when each step of it loses nothing, and what it
makes of two strings at once and of its own value. -/

namespace Sys2Proof.Machine

/-! ### No step loses a bit -/

section
variable {p : Word}

/-- With bit 15 of the polynomial set, that bit after a shift is the bit that was shifted out. -/
theorem crcShift_getLsbD_15 (hp : p.getLsbD 15 = true) (a : Word) : (crcShift p a).getLsbD 15 = a.getLsbD 0 := by
  have htop : (a >>> 1).getLsbD 15 = false := by rw [BitVec.getLsbD_ushiftRight, BitVec.getLsbD_of_ge a _ le_rfl]
  cases hout : a.getLsbD 0 with
  | false => rw [crcShift, hout, if_neg Bool.false_ne_true, htop]
  | true => rw [crcShift, hout, if_pos rfl, BitVec.getLsbD_xor, htop, hp, Bool.false_xor]

theorem crcShift_injective (hp : p.getLsbD 15 = true) : Function.Injective (crcShift p) := by
  intro a b h
  have hout : a.getLsbD 0 = b.getLsbD 0 := by rw [← crcShift_getLsbD_15 hp a, h, crcShift_getLsbD_15 hp b]
  have hkept : a >>> 1 = b >>> 1 := by
    unfold crcShift at h
    rw [hout] at h
    split at h
    · exact (BitVec.xor_left_inj _).1 h
    · exact h
  refine BitVec.eq_of_getLsbD_eq fun i _ => ?_
  cases i with
  | zero => exact hout
  | succ i =>
    have hbit := congrArg (BitVec.getLsbD · i) hkept
    simpa [Nat.add_comm] using hbit

theorem crcShifts_injective (hp : p.getLsbD 15 = true) (n : Nat) : Function.Injective (crcShifts p n) := by
  induction n with
  | zero => exact fun _ _ h => h
  | succ n ih => exact ih.comp (crcShift_injective hp)

end

section
variable {c : Config}

theorem crcUpd_injective (hp : c.crcPolyR.getLsbD 15 = true) (b : Byte) : Function.Injective (crcUpd c · b) :=
  fun _ _ h => (BitVec.xor_left_inj _).1 (crcShifts_injective hp 8 h)

theorem crcUpd_byte_injective (hp : c.crcPolyR.getLsbD 15 = true) (v : Word) : Function.Injective (crcUpd c v) := by
  intro x y h
  have hwide : x.setWidth 16 = y.setWidth 16 := (BitVec.xor_right_inj _).1 (crcShifts_injective hp 8 h)
  simpa using congrArg (BitVec.setWidth 8) hwide

theorem crcFold_injective (hp : c.crcPolyR.getLsbD 15 = true) (B : List Byte) :
    Function.Injective (crcFold c · B) := by
  induction B with
  | nil => exact fun _ _ h => h
  | cons b B ih => exact ih.comp (crcUpd_injective hp b)

end

/-! ### Two strings at once -/

theorem crcFold_xor (c : Config) (a b : Word) {A B : List Byte} (h : A.length = B.length) :
    crcFold c (a ^^^ b) (A.zipWith (· ^^^ ·) B) = crcFold c a A ^^^ crcFold c b B := by
  induction A generalizing a b B with
  | nil =>
    cases B with
    | nil => rfl
    | cons => cases h
  | cons x A ih =>
    cases B with
    | nil => cases h
    | cons y B =>
      have hrest := ih (crcUpd c a x) (crcUpd c b y) (Nat.succ.inj h)
      rwa [← crcUpd_xor] at hrest

theorem zipWith_xor_zeros (A : List Byte) : A.zipWith (· ^^^ ·) (List.replicate A.length 0) = A := by
  induction A with
  | nil => rfl
  | cons x A ih =>
    rw [List.length_cons, List.replicate_succ, List.zipWith_cons_cons, ih]
    exact congrArg (· :: A) BitVec.xor_zero

/-- The first two registers cancel the value they start from; the zero string's register brings it back. -/
theorem crcFold_zipWith_xor (c : Config) (v : Word) {A B : List Byte} (h : A.length = B.length) :
    crcFold c v (A.zipWith (· ^^^ ·) B) =
      crcFold c v A ^^^ crcFold c v B ^^^ crcFold c v (List.replicate A.length 0) := by
  have hlen : (A.zipWith (· ^^^ ·) B).length = A.length := by simp [h]
  rw [← crcFold_xor c v v h, ← crcFold_xor c (v ^^^ v) v (by rw [hlen, List.length_replicate]), BitVec.xor_self,
    BitVec.zero_xor, ← hlen, zipWith_xor_zeros]

/-! ### Its own value -/

theorem wireOrder_low_first {c : Config} (h : c.crcLowFirst = true) (v : Word) :
    wireOrder c v = [v.extractLsb' 0 8, v.extractLsb' 8 8] := if_pos h

theorem wireOrder_high_first {c : Config} (h : c.crcLowFirst = false) (v : Word) :
    wireOrder c v = [v.extractLsb' 8 8, v.extractLsb' 0 8] := by simp [wireOrder, h]

/-- As many shifts as there are zero bits at the bottom bring no polynomial in. -/
theorem crcShifts_of_low_zero (p : Word) (n : Nat) (a : Word) (h : ∀ i < n, a.getLsbD i = false) :
    crcShifts p n a = a >>> n := by
  induction n generalizing a with
  | zero => simp [crcShifts]
  | succ n ih =>
    have hshift : crcShift p a = a >>> 1 := by
      rw [crcShift, h 0 n.succ_pos, if_neg Bool.false_ne_true]
    have hrest : ∀ i < n, (a >>> 1).getLsbD i = false := fun i hi => by
      rw [BitVec.getLsbD_ushiftRight, Nat.add_comm]
      exact h (i + 1) (Nat.succ_lt_succ hi)
    rw [crcShifts, hshift, ih _ hrest, Nat.add_comm, BitVec.shiftRight_add]

theorem crcUpd_low_byte (c : Config) (v : Word) : crcUpd c v (v.extractLsb' 0 8) = v >>> 8 := by
  have hbit : ∀ i, (v ^^^ (v.extractLsb' 0 8).setWidth 16).getLsbD i = (!decide (i < 8) && v.getLsbD i) := fun i => by
    by_cases hi : i < 8
    · simp [hi, show i < 16 by omega]
    · simp [hi]
  rw [crcUpd, crcShifts_of_low_zero _ _ _ fun i hi => by simp [hbit, hi]]
  refine BitVec.eq_of_getLsbD_eq fun i _ => ?_
  simp [hbit]

theorem crcUpd_high_byte (c : Config) (v : Word) : crcUpd c (v >>> 8) (v.extractLsb' 8 8) = 0 := by
  have hwide : (v.extractLsb' 8 8).setWidth 16 = v >>> 8 := by
    refine BitVec.eq_of_getLsbD_eq fun i hlt => ?_
    by_cases hi : i < 8
    · simp [hi, hlt]
    · simp [hi, BitVec.getLsbD_of_ge v (8 + i) (by omega)]
  rw [crcUpd, hwide, BitVec.xor_self, crcShifts_of_low_zero _ _ _ fun i _ => BitVec.getLsbD_zero]
  rfl

end Sys2Proof.Machine
end

section
/-! What the checksum detects and how it combines (spec/40_checksum.md R108). -/

namespace Sys2Proof.Machine

/-- Settles O10: an injective function on a finite type is a bijection. -/
theorem crcUpdIsBijective : Obligations.CrcUpdIsBijective := by
  intro c b hp
  have : Finite Word := Finite.of_injective BitVec.toFin BitVec.toFin_injective
  exact Finite.injective_iff_bijective.1 (crcUpd_injective hp b)

/-- Settles O11: the registers are affine, and of the three final exclusive-ors two cancel. -/
theorem crcIsAffine : Obligations.CrcIsAffine := by
  intro c A B h
  have hfinal : ∀ a b d x : Word, (a ^^^ x) ^^^ (b ^^^ x) ^^^ (d ^^^ x) = a ^^^ b ^^^ d ^^^ x := fun a b d x => by
    ac_nf
    simp
  rw [crc16, crc16, crc16, crc16, hfinal, crcFold_zipWith_xor c c.crcInit h]

/-- Settles O12: the two registers differ after the changed byte, and no byte after it brings them together. -/
theorem oneByteChangeChangesCrc : Obligations.OneByteChangeChangesCrc := by
  intro c front back x y hp hne h
  have hregs : crcFold c c.crcInit (front ++ x :: back) = crcFold c c.crcInit (front ++ y :: back) :=
    (BitVec.xor_left_inj _).1 h
  rw [crcFold_append, crcFold_append] at hregs
  exact hne (crcUpd_byte_injective hp _ (crcFold_injective hp back hregs))

/-- Settles O13: the low byte leaves the high byte alone in the register, and the high byte cancels it. -/
theorem crcResidueIsZero : Obligations.CrcResidueIsZero := by
  intro c B hx hl
  have hcrc : ∀ A, crc16 c A = crcFold c c.crcInit A := fun A => by rw [crc16, hx]; exact BitVec.xor_zero
  have hbytes : crcBytes c B = [(crc16 c B).extractLsb' 0 8, (crc16 c B).extractLsb' 8 8] := by
    rw [crcBytes, wireOrder_low_first hl]
  rw [hcrc, crcFold_append, ← hcrc, hbytes]
  calc crcFold c (crc16 c B) [(crc16 c B).extractLsb' 0 8, (crc16 c B).extractLsb' 8 8]
    _ = crcUpd c (crcUpd c (crc16 c B) ((crc16 c B).extractLsb' 0 8)) ((crc16 c B).extractLsb' 8 8) := rfl
    _ = 0 := by rw [crcUpd_low_byte, crcUpd_high_byte]

end Sys2Proof.Machine
end

section
/-! The commands of the Checksum unit (spec/40_checksum.md R104 to R107). -/

namespace Sys2Proof.Machine

section
variable (s : State)

theorem exec_crcClr : exec .crcClr s = .next (reply 0x01 (respond .ok []) { s with crc := s.cfg.crcInit }) := rfl

theorem exec_crcUpd (b : Byte) :
    exec (.crcUpd b) s = .next (reply 0x02 (respond .ok []) { s with crc := crcUpd s.cfg s.crc b }) := rfl

theorem exec_crcGet :
    exec .crcGet s = .next (reply 0x03 (respond .ok (wireOrder s.cfg (s.crc ^^^ s.cfg.crcXorOut))) s) := rfl

theorem exec_crcBuf (bytes : List Byte) : exec (.crcBuf bytes) s =
    .next (reply 0x04 (respond .ok (crcBytes s.cfg bytes)) { s with crc := crcFold s.cfg s.cfg.crcInit bytes }) := rfl

end

theorem runInstrs_cons_of_next {i : Instr} {is : List Instr} {s t : State} (h : exec i s = .next t) :
    runInstrs (i :: is) s = runInstrs is t := by
  rw [runInstrs, h]

/-- A CRC.UPD of each byte folds the string into the accumulator and writes nothing else but the answers. -/
theorem runInstrs_crcUpd (bytes : List Byte) (s : State) :
    runInstrs (bytes.map .crcUpd) s = .next { s with
      crc := crcFold s.cfg s.crc bytes
      resp := s.resp ++ List.replicate bytes.length ⟨0x02, respond .ok []⟩ } := by
  induction bytes generalizing s with
  | nil => simp [runInstrs, crcFold]
  | cons b bytes ih =>
    rw [List.map_cons, runInstrs_cons_of_next (exec_crcUpd s b), ih]
    simp [reply, crcFold, List.replicate_succ]

theorem runInstrs_crcClr_crcUpd (bytes : List Byte) (s : State) :
    runInstrs (.crcClr :: bytes.map .crcUpd) s = .next { s with
      crc := crcFold s.cfg s.cfg.crcInit bytes
      resp := s.resp ++ ⟨0x01, respond .ok []⟩ :: List.replicate bytes.length ⟨0x02, respond .ok []⟩ } := by
  rw [runInstrs_cons_of_next (exec_crcClr s), runInstrs_crcUpd]
  simp [reply]

/-- Settles O6: the accumulator's initial value, and the answer of the CRC.GET after it. -/
theorem crcClrInitialisesCrc : Obligations.CrcClrInitialisesCrc := by
  refine ⟨rfl, exec_crcClr, fun s hcfg => ⟨_, exec_crcClr s, ?_⟩⟩
  rw [exec_crcGet, reply_cfg, reply_crc]
  have hbytes : wireOrder s.cfg (s.cfg.crcInit ^^^ s.cfg.crcXorOut) = [0xFF, 0xFF] := by
    rw [hcfg]
    decide
  rw [hbytes]
  rfl

/-- Settles O7: the equation of CRC.UPD, and the two values that R105 gives. -/
theorem crcUpdFoldsOneByte : Obligations.CrcUpdFoldsOneByte :=
  ⟨fun _ => rfl, fun b s => exec_crcUpd s b, by decide +kernel, by decide +kernel⟩

/-- Settles O8: the equation of CRC.GET in each wire order, and the two values that R106 gives. -/
theorem crcGetReadsCrc : Obligations.CrcGetReadsCrc := by
  refine ⟨rfl, ?lowFirst, ?highFirst, ?checkValue, ?reset⟩
  case lowFirst =>
    intro s h
    rw [exec_crcGet, wireOrder_low_first h]
    rfl
  case highFirst =>
    intro s h
    rw [exec_crcGet, wireOrder_high_first h]
    rfl
  case checkValue =>
    intro s hcfg hcrc
    have hbytes : wireOrder s.cfg (s.crc ^^^ s.cfg.crcXorOut) = [0x37, 0x4B] := by
      rw [hcrc, hcfg]
      decide +kernel
    rw [exec_crcGet, hbytes]
    rfl
  case reset => rfl

/-- Settles O9: the state after CRC.CLR and the CRC.UPDs, and what CRC.GET answers in it. -/
theorem crcBufIsClearUpdateGet : Obligations.CrcBufIsClearUpdateGet := by
  refine ⟨fun _ => rfl, fun bytes s => ?_, by decide +kernel, by decide +kernel⟩
  exact ⟨_, _, _, exec_crcBuf s bytes, rfl, runInstrs_crcClr_crcUpd bytes s, rfl, exec_crcGet _, rfl⟩

end Sys2Proof.Machine
end

section
/-! SUPPORT. A buffer that ends in its own checksum (spec/41_codec.md R121, R125), and one bit of it flipped (R137). -/

namespace Sys2Proof.Machine

-- one more elaboration thread here can exceed the memory limit of the whole text
set_option Elab.async false

/-! ### The checksum at the end -/

/-- The last two bytes are the checksum of the bytes before them. -/
abbrev ChecksumHolds (c : Config) (B : List Byte) : Prop :=
  crcBytes c (B.take (B.length - 2)) = B.drop (B.length - 2)

theorem checksumHolds_append (c : Config) (A : List Byte) : ChecksumHolds c (A ++ crcBytes c A) := by
  simp [ChecksumHolds]

theorem take_append_crcBytes {c : Config} {B : List Byte} (h : ChecksumHolds c B) :
    B.take (B.length - 2) ++ crcBytes c (B.take (B.length - 2)) = B := by
  rw [h, List.take_append_drop]

theorem wireOrder_injective (c : Config) : Function.Injective (wireOrder c) := by
  intro v w h
  have hbytes : v.extractLsb' 0 8 = w.extractLsb' 0 8 ∧ v.extractLsb' 8 8 = w.extractLsb' 8 8 := by
    cases hl : c.crcLowFirst with
    | true => simpa [wireOrder_low_first hl] using h
    | false => simpa [wireOrder_high_first hl, and_comm] using h
  obtain ⟨hlow, hhigh⟩ := hbytes
  have hparts : ∀ u : Word, u.extractLsb' 8 8 ++ u.extractLsb' 0 8 = u := fun _ =>
    BitVec.extractLsb'_append_extractLsb'
  rw [← hparts v, ← hparts w, hlow, hhigh]

theorem crcBytes_set_ne {c : Config} (hp : c.crcPolyR.getLsbD 15 = true) {A : List Byte} {k : Nat} {x : Byte}
    (hk : k < A.length) (hx : x ≠ A[k]) : crcBytes c (A.set k x) ≠ crcBytes c A := by
  intro h
  have hcrc : crc16 c (A.set k x) = crc16 c A := wireOrder_injective c h
  have hset : A.set k x = A.take k ++ x :: A.drop (k + 1) := List.set_eq_take_append_cons_drop.trans (if_pos hk)
  have hself : A = A.take k ++ A[k] :: A.drop (k + 1) := by simp
  rw [hset] at hcrc
  exact oneByteChangeChangesCrc c _ _ _ _ hp hx (hcrc.trans (congrArg (crc16 c) hself))

/-- A changed byte is either one that the checksum covers or one of the checksum's own. -/
theorem not_checksumHolds_set {c : Config} (hp : c.crcPolyR.getLsbD 15 = true) {A : List Byte} {k : Nat} {x : Byte}
    (hk : k < (A ++ crcBytes c A).length) (hx : x ≠ (A ++ crcBytes c A)[k]) :
    ¬ ChecksumHolds c ((A ++ crcBytes c A).set k x) := by
  have hcut : (A ++ crcBytes c A).length - 2 = A.length := by simp
  rw [ChecksumHolds, List.length_set, hcut]
  by_cases hcovered : k < A.length
  · rw [List.getElem_append_left hcovered] at hx
    rw [List.set_append_left _ _ hcovered, List.take_left' (by simp), List.drop_left' (by simp)]
    exact crcBytes_set_ne hp hcovered hx
  · have hle : A.length ≤ k := Nat.le_of_not_lt hcovered
    rw [List.getElem_append_right hle] at hx
    rw [List.set_append_right _ _ hle, List.take_left, List.drop_left]
    intro h
    have hbyte : (crcBytes c A)[k - A.length]? = ((crcBytes c A).set (k - A.length) x)[k - A.length]? :=
      congrArg (·[k - A.length]?) h
    have hlt : k - A.length < (crcBytes c A).length := by
      rw [List.length_append] at hk
      omega
    rw [List.getElem?_set_self hlt, List.getElem?_eq_getElem hlt] at hbyte
    exact hx (Option.some.inj hbyte).symm

/-! ### One flipped bit -/

/-- The buffer with bit `j` of byte `k` flipped. -/
def flipBit (B : List Byte) (k j : Nat) : List Byte := B.set k (B.getD k 0 ^^^ BitVec.twoPow 8 j)

@[simp] theorem flipBit_length (B : List Byte) (k j : Nat) : (flipBit B k j).length = B.length :=
  List.length_set

/-- The low bits of a byte show the flip of a bit exactly when it is one of them. -/
theorem setWidth_xor_twoPow_eq_iff (n : Nat) {j : Nat} (hj : j < 8) (b : Byte) :
    (b ^^^ BitVec.twoPow 8 j).setWidth n = b.setWidth n ↔ n ≤ j := by
  constructor
  · intro h
    by_contra hlt
    have hbit := congrArg (BitVec.getLsbD · j) h
    simp [Nat.lt_of_not_le hlt, hj] at hbit
  · intro hle
    refine BitVec.eq_of_getLsbD_eq fun i hi => ?_
    have hne : j ≠ i := by omega
    simp [hne]

section
variable {B : List Byte} {k j : Nat} (hk : k < B.length) (hj : j < 8)
include hk hj

theorem flipBit_getD_setWidth_eq_iff (n i : Nat) :
    ((flipBit B k j).getD i 0).setWidth n = (B.getD i 0).setWidth n ↔ ¬ (k = i ∧ j < n) := by
  by_cases hi : k = i
  · subst hi
    have hbyte : (flipBit B k j).getD k 0 = B.getD k 0 ^^^ BitVec.twoPow 8 j := by simp [flipBit, hk]
    rw [hbyte, setWidth_xor_twoPow_eq_iff n hj]
    simp
  · simp [flipBit, hi]

theorem flipBit_getD_eq_iff (i : Nat) : (flipBit B k j).getD i 0 = B.getD i 0 ↔ k ≠ i := by
  simpa [hj] using flipBit_getD_setWidth_eq_iff hk hj 8 i

theorem not_checksumHolds_flipBit {c : Config} (hp : c.crcPolyR.getLsbD 15 = true) {A : List Byte}
    (hB : B = A ++ crcBytes c A) : ¬ ChecksumHolds c (flipBit B k j) := by
  have hne : (flipBit B k j).getD k 0 ≠ B.getD k 0 := fun h => (flipBit_getD_eq_iff hk hj k).1 h rfl
  subst hB
  refine not_checksumHolds_set hp hk fun h => hne ?_
  rw [flipBit, h]
  simp

end

end Sys2Proof.Machine
end

section
/-! SUPPORT. The RS-form: which buffers have its layout, what `unpack_rs` makes of a buffer, and what `pack_rs` makes of
a frame (spec/41_codec.md R121, R129). -/

namespace Sys2Proof.Machine

/-! ### The layout of a buffer -/

/-- The length field of an RS-form buffer (R72). -/
def rsLen (B : List Byte) : Nat := (low7 (B.getD 2 0)).toNat

/-- The length check of R129. -/
abbrev RsSized (B : List Byte) : Prop := 6 ≤ B.length ∧ 1 ≤ rsLen B ∧ rsLen B ≤ 126 ∧ B.length = rsLen B + 5

/-- The fields of an RS-form buffer (R72, R129). -/
def rsFrameOf (B : List Byte) : FrameRS where
  frm := B.getD 0 0
  dst := B.getD 1 0
  state := hiBit (B.getD 2 0)
  rw := hiBit (B.getD 3 0)
  cmd := low7 (B.getD 3 0)
  data := (B.drop 4).take (rsLen B - 1)

section
variable {B : List Byte} (h : RsSized B)
include h

theorem rsFrameOf_data_length : (rsFrameOf B).data.length = rsLen B - 1 := by
  obtain ⟨-, -, -, hlen⟩ := h
  simp only [rsFrameOf, List.length_take, List.length_drop]
  omega

theorem rsChecksumHolds_iff (c : Config) :
    ChecksumHolds c B ↔ crcBytes c (B.take (rsLen B + 3)) = B.drop (rsLen B + 3) := by
  obtain ⟨-, -, -, hlen⟩ := h
  have hcut : B.length - 2 = rsLen B + 3 := by omega
  rw [ChecksumHolds, hcut]

theorem coveredRs_rsFrameOf : coveredRs (rsFrameOf B) = B.take (B.length - 2) := by
  have hdata := rsFrameOf_data_length h
  obtain ⟨hmin, hpos, -, hlen⟩ := h
  have hfield : lenField (rsFrameOf B).data = low7 (B.getD 2 0) := by
    rw [lenField, hdata, Nat.sub_add_cancel hpos]
    exact (BitVec.ofNat_toNat 7 _).trans (BitVec.setWidth_eq _)
  have hcut : B.length - 2 = rsLen B - 1 + 4 := by omega
  rw [coveredRs, hfield, hcut]
  match B, hmin with
  | frm :: dst :: b2 :: b3 :: rest, _ => simp [rsFrameOf, packByte_hiBit_low7]

/-- The result bytes of R88 as numbers. -/
theorem frameRsBytes_rsFrameOf : frameRsBytes (rsFrameOf B) =
    [B.getD 0 0, B.getD 1 0, BitVec.ofNat 8 (2 * ((B.getD 2 0).toNat / 128) + (B.getD 3 0).toNat / 128),
      BitVec.ofNat 8 ((B.getD 3 0).toNat % 128), BitVec.ofNat 8 (rsLen B - 1)] ++ (B.drop 4).take (rsLen B - 1) := by
  rw [frameRsBytes, countByte, rsFrameOf_data_length h, flByte_eq_ofNat, byte7_eq_ofNat]
  simp only [rsFrameOf, hiBit_toNat, low7_toNat]

end

/-! ### `unpack_rs` -/

section
variable (c : Config) (B : List Byte) (e0 e1 : Byte)

/-- The checks of R129 in their order. -/
theorem unpackRs_eq : unpackRs c B e0 e1 =
    if RsSized B then
      if idMatch (B.getD 0 0) e0 wildcardRs then
        if idMatch (B.getD 1 0) e1 wildcardRs then
          if ChecksumHolds c B then .ok (rsFrameOf B) else .error .crc
        else .error .sId
      else .error .mId
    else .error .len := by
  have hfield : (low7 (B.getD 2 0)).toNat = rsLen B := rfl
  simp only [unpackRs, rsLenMax, hfield]
  by_cases hs : RsSized B
  · obtain ⟨hmin, hpos, hmax, hlen⟩ := id hs
    rw [if_pos hs, if_neg (by omega), if_neg (by omega), if_neg (not_not.2 hlen)]
    simp only [rsFrameOf, rsChecksumHolds_iff hs, Bool.not_eq_true', ← Bool.not_eq_true, ite_not]
  · rw [if_neg hs]
    split_ifs with hmin hrange hlen
    · rfl
    · rfl
    · rfl
    all_goals exact absurd ⟨by omega, by omega, by omega, not_not.1 hlen⟩ hs

theorem unpackRs_eq_ok_iff (f : FrameRS) : unpackRs c B e0 e1 = .ok f ↔
    RsSized B ∧ idMatch (B.getD 0 0) e0 wildcardRs = true ∧ idMatch (B.getD 1 0) e1 wildcardRs = true ∧
      ChecksumHolds c B ∧ rsFrameOf B = f := by
  rw [unpackRs_eq]
  split_ifs with hs h0 h1 hc
  · exact ⟨fun h => ⟨hs, h0, h1, hc, Except.ok.inj h⟩, fun ⟨_, _, _, _, h⟩ => congrArg Except.ok h⟩
  · exact ⟨nofun, fun ⟨_, _, _, h, _⟩ => absurd h hc⟩
  · exact ⟨nofun, fun ⟨_, _, h, _, _⟩ => absurd h h1⟩
  · exact ⟨nofun, fun ⟨_, h, _, _, _⟩ => absurd h h0⟩
  · exact ⟨nofun, fun ⟨h, _, _, _, _⟩ => absurd h hs⟩

/-- Under a wrong checksum the ids decide the status. -/
theorem unpackRs_of_bad_checksum (hs : RsSized B) (hc : ¬ ChecksumHolds c B) : unpackRs c B e0 e1 =
    .error (if idMatch (B.getD 0 0) e0 wildcardRs then
      if idMatch (B.getD 1 0) e1 wildcardRs then .crc else .sId else .mId) := by
  rw [unpackRs_eq, if_pos hs, if_neg hc]
  split_ifs <;> rfl

end

/-! ### `pack_rs` -/

section
variable (c : Config) (f : FrameRS)

theorem packRs_length : (packRs c f).length = f.data.length + 6 := by simp [packRs, coveredRs]

theorem packRs_getD_0 : (packRs c f).getD 0 0 = f.frm := rfl

theorem packRs_getD_1 : (packRs c f).getD 1 0 = f.dst := rfl

theorem packRs_getD_2 : (packRs c f).getD 2 0 = packByte f.state (lenField f.data) := rfl

theorem packRs_getD_3 : (packRs c f).getD 3 0 = packByte f.rw f.cmd := rfl

theorem packRs_drop_4 : (packRs c f).drop 4 = f.data ++ crcBytes c (coveredRs f) := rfl

theorem packRs_checksumHolds : ChecksumHolds c (packRs c f) := checksumHolds_append c (coveredRs f)

variable {f} (hf : f.data.length ≤ 125)
include hf

theorem rsLen_packRs : rsLen (packRs c f) = f.data.length + 1 := by
  rw [rsLen, packRs_getD_2, low7_packByte, lenField_toNat _ (by omega)]

theorem packRs_sized : RsSized (packRs c f) := by
  rw [RsSized, rsLen_packRs c hf, packRs_length]
  omega

theorem rsFrameOf_packRs : rsFrameOf (packRs c f) = f := by
  simp only [rsFrameOf, packRs_getD_0, packRs_getD_1, packRs_getD_2, packRs_getD_3, hiBit_packByte, low7_packByte,
    rsLen_packRs c hf, packRs_drop_4, Nat.add_sub_cancel, List.take_left]

end

end Sys2Proof.Machine
end

section
/-! SUPPORT. The CAN-form: which buffers have its layout, what `unpack_can` makes of a buffer, and what `pack_can` makes
of a frame (spec/41_codec.md R125, R133). -/

namespace Sys2Proof.Machine

/-! ### The layout of a buffer -/

/-- The length field of a CAN-form buffer, without the reserved bits of its byte (R76, R91 (c)). -/
def canLen (B : List Byte) : Nat := (low4 (B.getD 3 0)).toNat

/-- The length check of R133. -/
abbrev CanSized (B : List Byte) : Prop := 7 ≤ B.length ∧ 1 ≤ canLen B ∧ canLen B ≤ 8 ∧ B.length = canLen B + 6

/-- The address check of R133: the upstream byte and the id. -/
abbrev CanAddressed (c : Config) (B : List Byte) (e : Field7) : Prop :=
  B.getD 1 0 = 0x00 ∧ idMatch (low7 (B.getD 2 0)) e c.wildcardCan = true

/-- The fields of a CAN-form buffer (R76, R133). -/
def canFrameOf (B : List Byte) : FrameCAN where
  id := low7 (B.getD 2 0)
  state := hiBit (B.getD 2 0)
  rw := hiBit (B.getD 4 0)
  cmd := low7 (B.getD 4 0)
  data := (B.drop 5).take (canLen B - 1)

section
variable {B : List Byte} (h : CanSized B)
include h

theorem canFrameOf_data_length : (canFrameOf B).data.length = canLen B - 1 := by
  obtain ⟨-, -, -, hlen⟩ := h
  simp only [canFrameOf, List.length_take, List.length_drop]
  omega

theorem canChecksumHolds_iff (c : Config) :
    ChecksumHolds c B ↔ crcBytes c (B.take (canLen B + 4)) = B.drop (canLen B + 4) := by
  obtain ⟨-, -, -, hlen⟩ := h
  have hcut : B.length - 2 = canLen B + 4 := by omega
  rw [ChecksumHolds, hcut]

theorem byte7_lenField_canFrameOf : byte7 (lenField (canFrameOf B).data) = B.getD 3 0 &&& 0x0F := by
  have hmask : ∀ b : Byte, byte7 (BitVec.ofNat 7 (low4 b).toNat) = b &&& 0x0F := by decide +kernel
  have hdata := canFrameOf_data_length h
  obtain ⟨-, hpos, -, -⟩ := h
  rw [lenField, hdata, Nat.sub_add_cancel hpos]
  exact hmask _

/-- The covered bytes of a buffer's frame are those of the buffer, its reserved bits cleared (log 21). -/
theorem coveredCan_canFrameOf (h0 : B.getD 0 0 = canSync) (h1 : B.getD 1 0 = 0x00) :
    coveredCan (canFrameOf B) = (B.set 3 (B.getD 3 0 &&& 0x0F)).take (B.length - 2) := by
  have hfield := byte7_lenField_canFrameOf h
  obtain ⟨hmin, hpos, -, hlen⟩ := h
  have hcut : B.length - 2 = canLen B - 1 + 5 := by omega
  rw [coveredCan, hfield, ← h0, ← h1, hcut]
  match B, hmin with
  | sync :: up :: b2 :: b3 :: b4 :: rest, _ => simp [canFrameOf, packByte_hiBit_low7]

/-- The result bytes of R88 as numbers. -/
theorem frameCanBytes_canFrameOf : frameCanBytes (canFrameOf B) =
    [BitVec.ofNat 8 ((B.getD 2 0).toNat % 128),
      BitVec.ofNat 8 (2 * ((B.getD 2 0).toNat / 128) + (B.getD 4 0).toNat / 128),
      BitVec.ofNat 8 ((B.getD 4 0).toNat % 128), BitVec.ofNat 8 (canLen B - 1)] ++
        (B.drop 5).take (canLen B - 1) := by
  rw [frameCanBytes, countByte, canFrameOf_data_length h, flByte_eq_ofNat, byte7_eq_ofNat, byte7_eq_ofNat]
  simp only [canFrameOf, hiBit_toNat, low7_toNat]

end

/-! ### `unpack_can` -/

section
variable (c : Config) (B : List Byte) (e : Field7)

/-- The checks of R133 in their order. -/
theorem unpackCan_eq : unpackCan c B e =
    if CanSized B then
      if B.getD 0 0 = canSync then
        if CanAddressed c B e then
          if ChecksumHolds c B then .ok (canFrameOf B) else .error .crc
        else .error .sId
      else .error .head
    else .error .len := by
  have hfield : (low4 (B.getD 3 0)).toNat = canLen B := rfl
  simp only [unpackCan, canLenMax, hfield]
  by_cases hs : CanSized B
  · obtain ⟨hmin, hpos, hmax, hlen⟩ := id hs
    rw [if_pos hs, if_neg (by omega), if_neg (by omega), if_neg (not_not.2 hlen)]
    simp only [canFrameOf, canChecksumHolds_iff hs, Bool.not_eq_true', ← Bool.not_eq_true, ite_not, ite_and]
  · rw [if_neg hs]
    split_ifs with hmin hrange hlen
    · rfl
    · rfl
    · rfl
    all_goals exact absurd ⟨by omega, by omega, by omega, not_not.1 hlen⟩ hs

theorem unpackCan_eq_ok_iff (f : FrameCAN) : unpackCan c B e = .ok f ↔
    CanSized B ∧ B.getD 0 0 = canSync ∧ CanAddressed c B e ∧ ChecksumHolds c B ∧ canFrameOf B = f := by
  rw [unpackCan_eq]
  split_ifs with hs h0 ha hc
  · exact ⟨fun h => ⟨hs, h0, ha, hc, Except.ok.inj h⟩, fun ⟨_, _, _, _, h⟩ => congrArg Except.ok h⟩
  · exact ⟨nofun, fun ⟨_, _, _, h, _⟩ => absurd h hc⟩
  · exact ⟨nofun, fun ⟨_, _, h, _, _⟩ => absurd h ha⟩
  · exact ⟨nofun, fun ⟨_, h, _, _, _⟩ => absurd h h0⟩
  · exact ⟨nofun, fun ⟨h, _, _, _, _⟩ => absurd h hs⟩

/-- Under a wrong checksum the sync byte and the address decide the status. -/
theorem unpackCan_of_bad_checksum (hs : CanSized B) (hc : ¬ ChecksumHolds c B) : unpackCan c B e =
    .error (if B.getD 0 0 = canSync then if CanAddressed c B e then .crc else .sId else .head) := by
  rw [unpackCan_eq, if_pos hs, if_neg hc]
  split_ifs <;> rfl

end

/-! ### `pack_can` -/

section
variable (c : Config) (f : FrameCAN)

theorem packCan_length : (packCan c f).length = f.data.length + 7 := by simp [packCan, coveredCan]

theorem packCan_getD_0 : (packCan c f).getD 0 0 = canSync := rfl

theorem packCan_getD_1 : (packCan c f).getD 1 0 = 0x00 := rfl

theorem packCan_getD_2 : (packCan c f).getD 2 0 = packByte f.state f.id := rfl

theorem packCan_getD_3 : (packCan c f).getD 3 0 = byte7 (lenField f.data) := rfl

theorem packCan_getD_4 : (packCan c f).getD 4 0 = packByte f.rw f.cmd := rfl

theorem packCan_drop_5 : (packCan c f).drop 5 = f.data ++ crcBytes c (coveredCan f) := rfl

theorem packCan_checksumHolds : ChecksumHolds c (packCan c f) := checksumHolds_append c (coveredCan f)

variable {f} (hf : f.data.length ≤ 7)
include hf

theorem canLen_packCan : canLen (packCan c f) = f.data.length + 1 := by
  rw [canLen, packCan_getD_3, low4_toNat, byte7_toNat, lenField_toNat _ (by omega)]
  omega

theorem packCan_sized : CanSized (packCan c f) := by
  rw [CanSized, canLen_packCan c hf, packCan_length]
  omega

theorem canFrameOf_packCan : canFrameOf (packCan c f) = f := by
  simp only [canFrameOf, packCan_getD_2, packCan_getD_4, hiBit_packByte, low7_packByte, canLen_packCan c hf,
    packCan_drop_5, Nat.add_sub_cancel, List.take_left]

end

end Sys2Proof.Machine
end

section
/-! PACK.RS and PACK.CAN (spec/41_codec.md R120 to R126). -/

namespace Sys2Proof.Machine

/-! ### The replies -/

section
variable {frm dst id fl cmd : Byte} {data : List Byte} (c : Config)

theorem packRsReply_ill (h : 4 ≤ fl.toNat ∨ 128 ≤ cmd.toNat) : packRsReply c frm dst fl cmd data = raise .ill :=
  if_pos (by simpa [flIllegal_eq_toNat, hiBit_eq_toNat] using h)

theorem packRsReply_legal (hfl : fl.toNat < 4) (hcmd : cmd.toNat < 128) : packRsReply c frm dst fl cmd data =
    if 125 < data.length then raise .len
    else respond .ok (countByte (packRs c ⟨frm, dst, flBit1 fl, flBit0 fl, low7 cmd, data⟩) ::
      packRs c ⟨frm, dst, flBit1 fl, flBit0 fl, low7 cmd, data⟩) :=
  if_neg (by simp [flIllegal_eq_toNat, hiBit_eq_toNat, hfl, hcmd])

theorem packCanReply_ill (h : 128 ≤ id.toNat ∨ 4 ≤ fl.toNat ∨ 128 ≤ cmd.toNat) :
    packCanReply c id fl cmd data = raise .ill :=
  if_pos (by simpa [flIllegal_eq_toNat, hiBit_eq_toNat, or_assoc] using h)

theorem packCanReply_legal (hid : id.toNat < 128) (hfl : fl.toNat < 4) (hcmd : cmd.toNat < 128) :
    packCanReply c id fl cmd data =
      if 7 < data.length then raise .len
      else respond .ok (countByte (packCan c ⟨low7 id, flBit1 fl, flBit0 fl, low7 cmd, data⟩) ::
        packCan c ⟨low7 id, flBit1 fl, flBit0 fl, low7 cmd, data⟩) :=
  if_neg (by simp [flIllegal_eq_toNat, hiBit_eq_toNat, hid, hfl, hcmd])

end

/-! ### The covered bytes as numbers -/

section
variable {fl cmd : Byte} {data : List Byte} (hfl : fl.toNat < 4) (hcmd : cmd.toNat < 128)
include hfl hcmd

theorem coveredRs_eq_ofNat (frm dst : Byte) (hdata : data.length ≤ 125) :
    coveredRs ⟨frm, dst, flBit1 fl, flBit0 fl, low7 cmd, data⟩ =
      frm :: dst :: BitVec.ofNat 8 (128 * (fl.toNat / 2) + (data.length + 1)) ::
        BitVec.ofNat 8 (128 * (fl.toNat % 2) + cmd.toNat) :: data := by
  have hstate : fl.toNat / 2 % 2 = fl.toNat / 2 := Nat.mod_eq_of_lt (by omega)
  simp only [coveredRs, packByte_eq_ofNat, flBit1_toNat, flBit0_toNat, low7_toNat, Nat.mod_eq_of_lt hcmd, hstate,
    lenField_toNat data (by omega), List.cons_append, List.nil_append]

theorem coveredCan_eq_ofNat {id : Byte} (hid : id.toNat < 128) (hdata : data.length ≤ 7) :
    coveredCan ⟨low7 id, flBit1 fl, flBit0 fl, low7 cmd, data⟩ =
      0xAA :: 0x00 :: BitVec.ofNat 8 (128 * (fl.toNat / 2) + id.toNat) ::
        BitVec.ofNat 8 (data.length + 1) :: BitVec.ofNat 8 (128 * (fl.toNat % 2) + cmd.toNat) :: data := by
  have hstate : fl.toNat / 2 % 2 = fl.toNat / 2 := Nat.mod_eq_of_lt (by omega)
  simp only [coveredCan, packByte_eq_ofNat, byte7_eq_ofNat, flBit1_toNat, flBit0_toNat, low7_toNat,
    Nat.mod_eq_of_lt hcmd, Nat.mod_eq_of_lt hid, hstate, lenField_toNat data (by omega), List.cons_append,
    List.nil_append]

end

/-! ### The commands -/

theorem exec_packRs (frm dst fl cmd : Byte) (data : List Byte) (s : State) :
    exec (.packRs frm dst fl cmd data) s = .next (reply 0x10 (packRsReply s.cfg frm dst fl cmd data) s) := rfl

theorem exec_packCan (id fl cmd : Byte) (data : List Byte) (s : State) :
    exec (.packCan id fl cmd data) s = .next (reply 0x11 (packCanReply s.cfg id fl cmd data) s) := rfl

/-- Settles O15: the three answers of PACK.RS, the frame's header as numbers. -/
theorem packRsAnswersTheFrame : Obligations.PackRsAnswersTheFrame := by
  intro frm dst fl cmd data s
  refine ⟨rfl, ?ill, ?len, ?ok⟩
  case ill =>
    intro h
    rw [exec_packRs, packRsReply_ill _ h]
    rfl
  case len =>
    intro hfl hcmd hlong
    rw [exec_packRs, packRsReply_legal _ hfl hcmd, if_pos hlong]
    rfl
  case ok =>
    intro hfl hcmd hdata B hB
    rw [exec_packRs, packRsReply_legal _ hfl hcmd, if_neg (Nat.not_lt.2 hdata), countByte, packRs_length, packRs,
      coveredRs_eq_ofNat hfl hcmd frm dst hdata, ← hB]
    rfl

/-- Settles O16: the three answers of PACK.CAN, the frame's header as numbers. -/
theorem packCanAnswersTheFrame : Obligations.PackCanAnswersTheFrame := by
  intro id fl cmd data s
  refine ⟨rfl, ?ill, ?len, ?ok⟩
  case ill =>
    intro h
    rw [exec_packCan, packCanReply_ill _ h]
    rfl
  case len =>
    intro hid hfl hcmd hlong
    rw [exec_packCan, packCanReply_legal _ hid hfl hcmd, if_pos hlong]
    rfl
  case ok =>
    intro hid hfl hcmd hdata B hB
    rw [exec_packCan, packCanReply_legal _ hid hfl hcmd, if_neg (Nat.not_lt.2 hdata), countByte, packCan_length,
      packCan, coveredCan_eq_ofNat hfl hcmd hid hdata, ← hB]
    rfl

end Sys2Proof.Machine
end

section
/-! UNPACK.RS and UNPACK.CAN (spec/41_codec.md R128 to R133). -/

namespace Sys2Proof.Machine

/-! ### The replies -/

section
variable {c : Config} {B : List Byte}

theorem unpackRsReply_of_error {e0 e1 : Byte} {st : Status} (h : unpackRs c B e0 e1 = .error st) :
    unpackRsReply c e0 e1 B = raise st := by
  rw [unpackRsReply, h]

theorem unpackRsReply_of_ok {e0 e1 : Byte} {f : FrameRS} (h : unpackRs c B e0 e1 = .ok f) :
    unpackRsReply c e0 e1 B = respond .ok (frameRsBytes f) := by
  rw [unpackRsReply, h]

theorem unpackCanReply_of_illegal {exp : Byte} (h : hiBit exp = true) : unpackCanReply c exp B = raise .ill := by
  rw [unpackCanReply, unpackCanByte, if_pos h]

theorem unpackCanReply_of_error {exp : Byte} {st : Status} (hexp : hiBit exp = false)
    (h : unpackCan c B (low7 exp) = .error st) : unpackCanReply c exp B = raise st := by
  rw [unpackCanReply, unpackCanByte, if_neg (by simp [hexp]), h]

theorem unpackCanReply_of_ok {exp : Byte} {f : FrameCAN} (hexp : hiBit exp = false)
    (h : unpackCan c B (low7 exp) = .ok f) : unpackCanReply c exp B = respond .ok (frameCanBytes f) := by
  rw [unpackCanReply, unpackCanByte, if_neg (by simp [hexp]), h]

end

/-! ### The commands -/

/-- Settles O17: each check of the statement is the one that `unpackRs_eq` makes at its place. -/
theorem unpackRsChecksInOrder : Obligations.UnpackRsChecksInOrder := by
  intro e0 e1 B s len answer sized id0 id1 sum hlen hanswer hsized hid0 hid1 hsum
  have hlen : len = rsLen B := hlen.trans (low7_toNat _).symm
  subst hlen
  have hid0 : id0 ↔ idMatch (B.getD 0 0) e0 wildcardRs = true := hid0.trans (idMatch_iff ..).symm
  have hid1 : id1 ↔ idMatch (B.getD 1 0) e1 wildcardRs = true := hid1.trans (idMatch_iff ..).symm
  have hsum : sized → (sum ↔ ChecksumHolds s.cfg B) := fun hs =>
    hsum.trans (rsChecksumHolds_iff (hsized.1 hs) s.cfg).symm
  have hexec : ∀ r, unpackRsReply s.cfg e0 e1 B = r → exec (.unpackRs e0 e1 B) s = .next (answer r) := by
    rintro r rfl
    rw [hanswer]
    rfl
  have herror : ∀ st, unpackRs s.cfg B e0 e1 = .error st → exec (.unpackRs e0 e1 B) s = .next (answer ⟨st, []⟩) :=
    fun st h => hexec _ (unpackRsReply_of_error h)
  refine ⟨rfl, fun hs => ?len, fun hs h0 => ?mId, fun hs h0 h1 => ?sId, fun hs h0 h1 hc => ?crc,
    fun hs h0 h1 hc => ?ok⟩
  case len => exact herror _ (by rw [unpackRs_eq, if_neg (hsized.not.1 hs)])
  case mId => exact herror _ (by rw [unpackRs_eq, if_pos (hsized.1 hs), if_neg (hid0.not.1 h0)])
  case sId =>
    exact herror _ (by rw [unpackRs_eq, if_pos (hsized.1 hs), if_pos (hid0.1 h0), if_neg (hid1.not.1 h1)])
  case crc =>
    exact herror _ (by
      rw [unpackRs_eq, if_pos (hsized.1 hs), if_pos (hid0.1 h0), if_pos (hid1.1 h1), if_neg ((hsum hs).not.1 hc)])
  case ok =>
    have hframe : unpackRs s.cfg B e0 e1 = .ok (rsFrameOf B) := by
      rw [unpackRs_eq_ok_iff]
      exact ⟨hsized.1 hs, hid0.1 h0, hid1.1 h1, (hsum hs).1 hc, rfl⟩
    rw [← frameRsBytes_rsFrameOf (hsized.1 hs)]
    exact hexec _ (unpackRsReply_of_ok hframe)

/-- Settles O18: the operand's check first, then each check that `unpackCan_eq` makes at its place. -/
theorem unpackCanChecksInOrder : Obligations.UnpackCanChecksInOrder := by
  intro exp B s len answer legal sized sync up id sum hlen hanswer hlegal hsized hsync hup hid hsum
  have hlen : len = canLen B := hlen.trans (low4_toNat _).symm
  subst hlen
  have hhi : legal ↔ hiBit exp = false := by rw [hlegal, hiBit_eq_toNat, decide_eq_false_iff_not, Nat.not_le]
  have haddr : legal → (up ∧ id ↔ CanAddressed s.cfg B (low7 exp)) := fun hl => by
    rw [hup, hid, CanAddressed, idMatch_iff]
    simp only [← BitVec.toNat_inj (n := 7), low7_toNat, Nat.mod_eq_of_lt (hlegal.1 hl)]
  have hsum : sized → (sum ↔ ChecksumHolds s.cfg B) := fun hs =>
    hsum.trans (canChecksumHolds_iff (hsized.1 hs) s.cfg).symm
  have hexec : ∀ r, unpackCanReply s.cfg exp B = r → exec (.unpackCan exp B) s = .next (answer r) := by
    rintro r rfl
    rw [hanswer]
    rfl
  have herror : ∀ st, legal → unpackCan s.cfg B (low7 exp) = .error st →
      exec (.unpackCan exp B) s = .next (answer ⟨st, []⟩) := fun st hl h =>
    hexec _ (unpackCanReply_of_error (hhi.1 hl) h)
  refine ⟨rfl, fun hl => ?ill, fun hl hs => ?len, fun hl hs h0 => ?head, fun hl hs h0 ha => ?sId,
    fun hl hs h0 ha hc => ?crc, fun hl hs h0 ha hc => ?ok⟩
  case ill => exact hexec _ (unpackCanReply_of_illegal (Bool.not_eq_false _ ▸ hhi.not.1 hl))
  case len => exact herror _ hl (by rw [unpackCan_eq, if_neg (hsized.not.1 hs)])
  case head => exact herror _ hl (by rw [unpackCan_eq, if_pos (hsized.1 hs), if_neg (hsync.not.1 h0)])
  case sId =>
    exact herror _ hl (by
      rw [unpackCan_eq, if_pos (hsized.1 hs), if_pos (hsync.1 h0), if_neg ((haddr hl).not.1 ha)])
  case crc =>
    exact herror _ hl (by
      rw [unpackCan_eq, if_pos (hsized.1 hs), if_pos (hsync.1 h0), if_pos ((haddr hl).1 ha),
        if_neg ((hsum hs).not.1 hc)])
  case ok =>
    have hframe : unpackCan s.cfg B (low7 exp) = .ok (canFrameOf B) := by
      rw [unpackCan_eq_ok_iff]
      exact ⟨hsized.1 hs, hsync.1 h0, (haddr hl).1 ha, (hsum hs).1 hc, rfl⟩
    rw [← frameCanBytes_canFrameOf (hsized.1 hs)]
    exact hexec _ (unpackCanReply_of_ok (hhi.1 hl) hframe)

end Sys2Proof.Machine
end

section
/-! The codec's properties (spec/41_codec.md R136, R137): packing and unpacking invert one another, and one flipped bit
is always detected. -/

namespace Sys2Proof.Machine

/-! ### Round trips -/

/-- Settles O19: the packed frame passes every check and has the frame's fields; the bytes before the checksum of a
buffer that passes are those its fields pack to. -/
theorem rsFramesRoundTrip : Obligations.RsFramesRoundTrip := by
  constructor
  · intro c f e0 e1 hdata hid0 hid1
    rw [unpackRs_eq_ok_iff]
    exact ⟨packRs_sized c hdata, hid0, hid1, packRs_checksumHolds c f, rsFrameOf_packRs c hdata⟩
  · intro c f e0 e1 B h
    obtain ⟨hs, -, -, hsum, rfl⟩ := (unpackRs_eq_ok_iff ..).1 h
    rw [packRs, coveredRs_rsFrameOf hs, take_append_crcBytes hsum]

theorem and_low_of_and_high_eq_zero (b : Byte) (h : b &&& 0xF0 = 0) : b &&& 0x0F = b := by
  revert b; decide +kernel

/-- Settles O20: as for the RS-form, but that packing clears the reserved bits of the length's byte. -/
theorem canFramesRoundTrip : Obligations.CanFramesRoundTrip := by
  constructor
  · intro c f hdata
    rw [unpackCan_eq_ok_iff]
    have haddr : CanAddressed c (packCan c f) f.id :=
      ⟨rfl, (idMatch_iff ..).2 (.inl (low7_packByte f.state f.id))⟩
    exact ⟨packCan_sized c hdata, rfl, haddr, packCan_checksumHolds c f, canFrameOf_packCan c hdata⟩
  · intro c f e B h
    obtain ⟨hs, hsync, ⟨hup, -⟩, hsum, rfl⟩ := (unpackCan_eq_ok_iff ..).1 h
    have hcov := coveredCan_canFrameOf hs hsync hup
    constructor
    · rw [packCan, hcov, List.take_left' (by simp)]
    · intro hres
      have hself : B.set 3 (B.getD 3 0) = B := by
        obtain ⟨hmin, -⟩ := hs
        have hlt : 3 < B.length := by omega
        simp [hlt]
      rw [and_low_of_and_high_eq_zero _ hres, hself] at hcov
      rw [packCan, hcov, take_append_crcBytes hsum]

/-! ### One flipped bit -/

section
variable {B : List Byte} {k j : Nat} (hk : k < B.length) (hj : j < 8)
include hk hj

theorem rsSized_flipBit_iff (hs : RsSized B) : RsSized (flipBit B k j) ↔ ¬ (k = 2 ∧ j < 7) := by
  have hfield : rsLen (flipBit B k j) = rsLen B ↔ ¬ (k = 2 ∧ j < 7) :=
    BitVec.toNat_inj.trans (flipBit_getD_setWidth_eq_iff hk hj 7 2)
  rw [← hfield, RsSized, flipBit_length]
  omega

theorem canSized_flipBit_iff (hs : CanSized B) : CanSized (flipBit B k j) ↔ ¬ (k = 3 ∧ j < 4) := by
  have hfield : canLen (flipBit B k j) = canLen B ↔ ¬ (k = 3 ∧ j < 4) :=
    BitVec.toNat_inj.trans (flipBit_getD_setWidth_eq_iff hk hj 4 3)
  rw [← hfield, CanSized, flipBit_length]
  omega

end

/-- Settles O21: a flip in the length field breaks the size; any other breaks the checksum, and is reported as an id's
when it makes an id that no longer matches. -/
theorem flippedBitOfRsFrameIsDetected : Obligations.FlippedBitOfRsFrameIsDetected := by
  intro c f k j P P' hp hdata hP hk hj hP'
  subst hP
  change P' = flipBit (packRs c f) k j at hP'
  have hid0 : P'.getD 0 0 = f.frm ↔ k ≠ 0 := hP' ▸ flipBit_getD_eq_iff hk hj 0
  have hid1 : P'.getD 1 0 = f.dst ↔ k ≠ 1 := hP' ▸ flipBit_getD_eq_iff hk hj 1
  have hsized : RsSized P' ↔ ¬ (k = 2 ∧ j < 7) := hP' ▸ rsSized_flipBit_iff hk hj (packRs_sized c hdata)
  have hbad : ¬ ChecksumHolds c P' := hP' ▸ not_checksumHolds_flipBit hk hj hp rfl
  by_cases hlen : k = 2 ∧ j < 7
  · obtain ⟨rfl, -⟩ := id hlen
    rw [unpackRs_eq, if_neg fun h => hsized.1 h hlen, if_pos hlen]
    rfl
  · rw [unpackRs_of_bad_checksum _ _ _ _ (hsized.2 hlen) hbad]
    simp only [idMatch_iff, hid0, hid1, if_neg hlen]
    by_cases h0 : k = 0
    · simp [h0]
    · by_cases h1 : k = 1 <;> simp [h0, h1]

/-- Settles O22: as for the RS-form; the sync and upstream bytes have one value each, and the reserved bits of the
length's byte are covered by the checksum alone. -/
theorem flippedBitOfCanFrameIsDetected : Obligations.FlippedBitOfCanFrameIsDetected := by
  intro c f k j P P' hp hdata hP hk hj hP'
  subst hP
  change P' = flipBit (packCan c f) k j at hP'
  have hsync : P'.getD 0 0 = canSync ↔ k ≠ 0 := hP' ▸ flipBit_getD_eq_iff hk hj 0
  have hup : P'.getD 1 0 = 0x00 ↔ k ≠ 1 := hP' ▸ flipBit_getD_eq_iff hk hj 1
  have hid : low7 (P'.getD 2 0) = f.id ↔ ¬ (k = 2 ∧ j < 7) := by
    rw [hP', ← low7_packByte f.state f.id]
    exact flipBit_getD_setWidth_eq_iff hk hj 7 2
  have hsized : CanSized P' ↔ ¬ (k = 3 ∧ j < 4) := hP' ▸ canSized_flipBit_iff hk hj (packCan_sized c hdata)
  have hbad : ¬ ChecksumHolds c P' := hP' ▸ not_checksumHolds_flipBit hk hj hp rfl
  by_cases hlen : k = 3 ∧ j < 4
  · obtain ⟨rfl, hlt⟩ := id hlen
    rw [unpackCan_eq, if_neg fun h => hsized.1 h hlen]
    simp [hlt]
  · rw [unpackCan_of_bad_checksum _ _ _ (hsized.2 hlen) hbad]
    simp only [CanAddressed, idMatch_iff, hsync, hup, hid, if_neg hlen]
    by_cases h0 : k = 0
    · simp [h0]
    · by_cases h1 : k = 1
      · simp [h1]
      · by_cases h2 : k = 2 ∧ j < 7 <;> simp [h0, h1, h2]

end Sys2Proof.Machine
end

section
/-! The items of the decoder are the buffers that `unpack_rs` takes (spec/42_decoder.md R165). -/

namespace Sys2Proof.Machine

section
variable {s : State} {B : List Byte}

/-- What the decoder emits passes every check of R129, as far as its length limit is that of the codec. -/
theorem unpackRs_of_acceptedItem (h : AcceptedItem s B) (hcap : s.cfg.decLenCap ≤ 126) :
    unpackRs s.cfg B s.expFrom s.expTo = .ok (rsFrameOf B) := by
  obtain ⟨hsource, htarget, hpos, hle, hlen, hcrc⟩ := h
  have hsized : RsSized B := ⟨by omega, hpos, hle.trans hcap, hlen⟩
  exact (unpackRs_eq_ok_iff ..).2 ⟨hsized, hsource, htarget, hcrc, rfl⟩

/-- A valid frame within the decoder's length limit is an item that the decoder emits. -/
theorem acceptedItem_of_unpackRs {f : FrameRS} (h : unpackRs s.cfg B s.expFrom s.expTo = .ok f)
    (hcap : (B.getD 2 0).toNat % 128 ≤ s.cfg.decLenCap) : AcceptedItem s B := by
  obtain ⟨⟨-, hpos, -, hlen⟩, hsource, htarget, hcrc, -⟩ := (unpackRs_eq_ok_iff ..).1 h
  exact ⟨hsource, htarget, hpos, low7_toNat _ ▸ hcap, hlen, hcrc⟩

end

/-- Settles O48: the queue's invariant says that every item is one that the decoder emits. -/
theorem queuedItemsUnpack : Obligations.QueuedItemsUnpack := by
  intro s item h hatt hcap hmem
  obtain ⟨-, -, haccepted⟩ := h.queue
  exact ⟨_, unpackRs_of_acceptedItem (haccepted hatt item hmem) hcap⟩

end Sys2Proof.Machine
end

section
/-! SUPPORT. Bytes fed one after the other: how the steps chain, what a byte fed leaves, and what it does not look at
(R150, R151). -/

namespace Sys2Proof.Machine

/-! ### Chaining -/

/-- `o`, and then `f` from the state it leads to; a fault or a refusal ends the chain. -/
def andThen (o : Host.Outcome State Fault Refusal) (f : State → Host.Outcome State Fault Refusal) :
    Host.Outcome State Fault Refusal :=
  match o with
  | .next s => f s
  | .fault r => .fault r
  | .refused r => .refused r

@[simp] theorem andThen_next (s : State) (f : State → Host.Outcome State Fault Refusal) :
    andThen (.next s) f = f s := rfl

@[simp] theorem andThen_fault (r : Fault) (f : State → Host.Outcome State Fault Refusal) :
    andThen (.fault r) f = .fault r := rfl

@[simp] theorem andThen_refused (r : Refusal) (f : State → Host.Outcome State Fault Refusal) :
    andThen (.refused r) f = .refused r := rfl

theorem runInstrs_cons (i : Instr) (is : List Instr) (s : State) :
    runInstrs (i :: is) s = andThen (exec i s) (runInstrs is) := by
  rw [runInstrs]
  cases exec i s <;> rfl

theorem feed_cons (b : Byte) (A : List Byte) (s : State) : feed (b :: A) s = andThen (exec (.decFeed b) s) (feed A) :=
  runInstrs_cons ..

theorem feed_append (A B : List Byte) (s : State) : feed (A ++ B) s = andThen (feed A s) (feed B) := by
  induction A generalizing s with
  | nil => rfl
  | cons b A ih =>
    rw [List.cons_append, feed_cons, feed_cons]
    cases exec (.decFeed b) s with
    | next t => exact ih t
    | fault r | refused r => rfl

theorem rxTurns_succ (n : Nat) (s : State) : rxTurns (n + 1) s = andThen (rxTurn s) (rxTurns n) := by
  rw [rxTurns]
  cases rxTurn s <;> rfl

/-! ### What a byte fed leaves -/

/-- The terminal flag, the path of the RX bytes and the chunk in delivery of `t` are those of `s`. -/
def SameDelivery (s t : State) : Prop := t.dead = s.dead ∧ t.decAttached = s.decAttached ∧ t.rxRest = s.rxRest

theorem finishFrame_sameDelivery (s : State) : SameDelivery s (finishFrame s) := by
  obtain heq | ⟨item, heq⟩ := finishFrame_cases s <;> simp [SameDelivery, heq]

theorem decStep_sameDelivery {b : Byte} {s t : State} (h : decStep b s = .next t) : SameDelivery s t := by
  obtain ⟨m, n, d, st, rfl | rfl⟩ := decStep_eq_next h
  · exact ⟨rfl, rfl, rfl⟩
  · exact finishFrame_sameDelivery { s with rxbuf := m, rxn := n, drem := d, dstate := st }

/-- The three things DEC.FEED can do (R150). -/
theorem exec_decFeed_cases (b : Byte) (s : State) :
    exec (.decFeed b) s = .next s ∨ exec (.decFeed b) s = decStep b s ∨
      exec (.decFeed b) s = .refused .expectationsUnwritten := by
  cases hd : s.dead with
  | true => exact .inl (execDecFeed_of_dead hd)
  | false =>
    cases he : s.expSet with
    | true => exact .inr (.inl (execDecFeed_of_live hd he))
    | false => exact .inr (.inr (execDecFeed_of_unwritten hd he))

theorem exec_decFeed_sameDelivery {b : Byte} {s t : State} (h : exec (.decFeed b) s = .next t) :
    SameDelivery s t := by
  obtain heq | heq | heq := exec_decFeed_cases b s <;> rw [heq] at h
  · cases h
    exact ⟨rfl, rfl, rfl⟩
  · exact decStep_sameDelivery h
  · cases h

theorem feed_sameDelivery {A : List Byte} {s t : State} (h : feed A s = .next t) : SameDelivery s t := by
  induction A generalizing s with
  | nil =>
    cases h
    exact ⟨rfl, rfl, rfl⟩
  | cons b A ih =>
    rw [feed_cons] at h
    cases hb : exec (.decFeed b) s with
    | next u =>
      rw [hb] at h
      obtain ⟨hdead, hatt, hrx⟩ := ih h
      obtain ⟨hdead', hatt', hrx'⟩ := exec_decFeed_sameDelivery hb
      exact ⟨hdead.trans hdead', hatt.trans hatt', hrx.trans hrx'⟩
    | fault r | refused r =>
      rw [hb] at h
      cases h

/-! ### What a push and a byte fed do not look at -/

/-- `s` with `r` as the chunk in delivery. -/
def withRest (r : List Byte) (s : State) : State := { s with rxRest := r }

@[simp] theorem withRest_dstate (r : List Byte) (s : State) : (withRest r s).dstate = s.dstate := rfl

/-- `q_push` neither reads nor writes the decoder (R181). -/
theorem qPush_decoder (item : List Byte) (s : State) (m : List Host.Cell) (n : BitVec 8) (d : BitVec 7) (st : DState) :
    qPush item { s with rxbuf := m, rxn := n, drem := d, dstate := st } =
      { qPush item s with rxbuf := m, rxn := n, drem := d, dstate := st } := by
  unfold qPush
  cases s.rdPend with
  | true => rfl
  | false => by_cases hfull : s.q.length = s.cfg.qCap <;> simp [hfull]

theorem qPush_withRest (r item : List Byte) (s : State) : qPush item (withRest r s) = withRest r (qPush item s) := by
  simp only [qPush, apply_ite (withRest r)]
  rfl

theorem finishFrame_withRest (r : List Byte) (s : State) :
    finishFrame (withRest r s) = withRest r (finishFrame s) := by
  have hclear : clearDecoder (withRest r s) = withRest r (clearDecoder s) := rfl
  simp only [finishFrame, hclear, qPush_withRest, apply_ite (withRest r)]
  rfl

theorem storeRx_withRest (r : List Byte) (b : Byte) (s : State) :
    storeRx b (withRest r s) = (storeRx b s).map (withRest r) := by
  by_cases hlt : s.rxn.toNat < s.cfg.rxbufSize
  · rw [storeRx_of_lt hlt]
    exact storeRx_of_lt (s := withRest r s) hlt
  · have hnone : storeRx b s = none := if_neg hlt
    rw [hnone]
    exact if_neg hlt

theorem decStep_withRest (r : List Byte) (b : Byte) (s : State) :
    decStep b (withRest r s) = andThen (decStep b s) fun t => .next (withRest r t) := by
  cases hst : s.dstate with
  | awaitFrom =>
    rw [decStep_awaitFrom hst, decStep_awaitFrom (s := withRest r s) hst, andThen_next, apply_ite (withRest r)]
    rfl
  | awaitTo =>
    rw [decStep_awaitTo hst, decStep_awaitTo (s := withRest r s) hst, andThen_next, apply_ite (withRest r)]
    rfl
  | awaitLen =>
    rw [decStep_awaitLen hst, decStep_awaitLen (s := withRest r s) hst, andThen_next, apply_ite (withRest r)]
    rfl
  | awaitData | awaitCrc1 =>
    simp only [decStep, withRest_dstate, hst, storeRx_withRest]
    cases storeRx b s <;> rfl
  | awaitCrc2 =>
    simp only [decStep, withRest_dstate, hst, storeRx_withRest]
    cases storeRx b s with
    | none => rfl
    | some t => exact congrArg _ (finishFrame_withRest r t)

/-- A byte fed does what it does whatever the chunk in delivery. -/
theorem exec_decFeed_withRest (r : List Byte) (b : Byte) (s : State) :
    exec (.decFeed b) (withRest r s) = andThen (exec (.decFeed b) s) fun t => .next (withRest r t) := by
  cases hd : s.dead with
  | true => rw [execDecFeed_of_dead hd, execDecFeed_of_dead (s := withRest r s) hd, andThen_next]
  | false =>
    cases he : s.expSet with
    | true =>
      rw [execDecFeed_of_live hd he, execDecFeed_of_live (s := withRest r s) hd he]
      exact decStep_withRest r b s
    | false =>
      rw [execDecFeed_of_unwritten hd he, execDecFeed_of_unwritten (s := withRest r s) hd he, andThen_refused]

end Sys2Proof.Machine
end

section
/-! The chunk (spec/42_decoder.md R161, spec/43_queue_transport.md R182). -/

namespace Sys2Proof.Machine

/-- As many turns of the RX agent as `A` has bytes, with `A` at the head of the chunk in delivery, feed `A`. -/
theorem rxTurns_withRest (A : List Byte) (s : State) : rxTurns A.length (withRest (A ++ s.rxRest) s) = feed A s := by
  induction A generalizing s with
  | nil => rfl
  | cons b A ih =>
    have hturn : rxTurn (withRest (b :: A ++ s.rxRest) s) = exec (.decFeed b) (withRest (A ++ s.rxRest) s) :=
      rxTurn_of_chunk rfl
    rw [List.length_cons, rxTurns_succ, hturn, exec_decFeed_withRest, feed_cons]
    cases hb : exec (.decFeed b) s with
    | next t =>
      obtain ⟨-, -, hrest⟩ := exec_decFeed_sameDelivery hb
      rw [← hrest]
      exact ih t
    | fault r | refused r => rfl

/-- On the decoder path a chunk becomes the chunk in delivery (R182). -/
theorem exec_rxChunk_attached {s : State} (hd : s.dead = false) (hatt : s.decAttached = true) (hrest : s.rxRest = [])
    (A : List Byte) : exec (.rxChunk A) s = .next (withRest (A ++ s.rxRest) s) := by
  cases A with
  | nil => simp [exec, execRxChunk, withRest]
  | cons b A => simp [exec, execRxChunk, withRest, hd, hatt, hrest]

/-- Settles O26: the turns of the RX agent feed the chunk's bytes, which leaves the agent free for the next chunk. -/
theorem chunkIsTheFeedOfItsBytes : Obligations.ChunkIsTheFeedOfItsBytes := by
  intro s A B hd hatt hrest
  refine ⟨⟨_, exec_rxChunk_attached hd hatt hrest _, rxTurns_withRest _ s⟩,
    ⟨_, exec_rxChunk_attached hd hatt hrest A, ?_, ?_, ?_⟩⟩ <;> rw [rxTurns_withRest, feed_append]
  · intro u hu
    obtain ⟨hdead, hattached, hrx⟩ := feed_sameDelivery hu
    rw [hu, andThen_next]
    exact ⟨_, exec_rxChunk_attached (hdead.trans hd) (hattached.trans hatt) (hrx.trans hrest) B, rxTurns_withRest B u⟩
  · intro r hr
    rw [hr, andThen_refused]
  · intro r hr
    rw [hr, andThen_fault]

end Sys2Proof.Machine
end

section
/-! SUPPORT. A frame fed from AWAIT_FROM: the decoder holds its bytes up to the last, which pushes it (R151, R157). -/

namespace Sys2Proof.Machine

/-- A byte written behind the bytes that are held. -/
theorem readBytes_writeByte_end {m : List Host.Cell} (hm : m.Pairwise fun x y => x.1 < y.1) (n : Nat) (b : Byte) :
    readBytes (writeByte m n b) 0 (n + 1) = readBytes m 0 n ++ [b] := by
  have hread := readByte_writeByte hm n
  rw [readBytes_add, readBytes_congr (m' := m) fun a _ ha => by rw [hread, if_neg (by omega)]]
  simp [readBytes, hread]

/-- RXN tells AWAIT_CRC2 from every other state (R23). -/
theorem DecoderInv.awaitCrc2_iff {s : State} (h : DecoderInv s) :
    s.dstate = .awaitCrc2 ↔ 3 ≤ s.rxn.toNat ∧ s.rxn.toNat = 4 + rxLen s := by
  cases hst : s.dstate with
  | awaitFrom => simp [(decoderInv_awaitFrom hst).1 h]
  | awaitTo =>
    obtain ⟨hrxn, -⟩ := (decoderInv_awaitTo hst).1 h
    simp [hrxn]
  | awaitLen =>
    obtain ⟨hrxn, -⟩ := (decoderInv_awaitLen hst).1 h
    simp [hrxn]
  | awaitData =>
    obtain ⟨-, hdrem, -, hrxn⟩ := (decoderInv_awaitData hst).1 h
    simp only [reduceCtorEq, false_iff]
    omega
  | awaitCrc1 =>
    obtain ⟨-, hrxn⟩ := (decoderInv_awaitCrc1 hst).1 h
    simp only [reduceCtorEq, false_iff]
    omega
  | awaitCrc2 =>
    obtain ⟨-, hrxn⟩ := (decoderInv_awaitCrc2 hst).1 h
    simp only [true_iff]
    omega

/-- The decoder of `t` holds the bytes `A`, and the rest of `t` is that of `s`. -/
structure Holding (s : State) (A : List Byte) (t : State) : Prop where
  inv : StateInv t
  held : readBytes t.rxbuf 0 t.rxn.toNat = A
  rest : ∃ m n d st, t = { s with rxbuf := m, rxn := n, drem := d, dstate := st }

theorem Holding.start {s : State} (h : StateInv s) (hst : s.dstate = .awaitFrom) : Holding s [] s where
  inv := h
  held := by rw [(decoderInv_awaitFrom hst).1 h.decoder]; rfl
  rest := ⟨_, _, _, _, rfl⟩

section
variable {s t : State} {A rest : List Byte} {b : Byte} (h : Holding s A t)
include h

theorem Holding.rxn_eq : t.rxn.toNat = A.length := by
  rw [← h.held, readBytes_length]

/-- The bytes held, as bytes of the string that is being fed. -/
theorem Holding.readByte_eq {a : Nat} (ha : a < A.length) (B : List Byte) :
    readByte t.rxbuf a = (A ++ B).getD a 0 := by
  have hn := h.rxn_eq
  rw [List.getD_append _ _ _ _ ha, ← h.held, readBytes_getD _ _ _ _ (by omega), Nat.zero_add]

theorem Holding.rxLen_eq (hA : 3 ≤ A.length) (B : List Byte) : rxLen t = rsLen (A ++ B) := by
  rw [rxLen, rsLen, h.readByte_eq hA B]

theorem Holding.setup : t.cfg = s.cfg ∧ t.dead = s.dead ∧ t.expSet = s.expSet ∧ t.expFrom = s.expFrom ∧
    t.expTo = s.expTo := by
  obtain ⟨m, n, d, st, rfl⟩ := h.rest
  exact ⟨rfl, rfl, rfl, rfl, rfl⟩

variable (hP : AcceptedItem s (A ++ b :: rest))
include hP

/-- Only the last byte of a frame is awaited in AWAIT_CRC2. -/
theorem Holding.awaitCrc2_iff : t.dstate = .awaitCrc2 ↔ rest = [] := by
  obtain ⟨-, -, -, -, hlen, -⟩ := hP
  have hlen : A.length + (rest.length + 1) = rsLen (A ++ b :: rest) + 5 := by simpa [rsLen] using hlen
  rw [h.inv.decoder.awaitCrc2_iff, h.rxn_eq, ← List.length_eq_zero_iff]
  by_cases hA : 3 ≤ A.length
  · have hfield := h.rxLen_eq hA (b :: rest)
    omega
  · omega

/-- Any other byte of a frame passes the test of its state and is stored. -/
theorem Holding.decStep_stores (hrest : rest ≠ []) :
    ∃ d st, decStep b t = .next { stored b t with drem := d, dstate := st } := by
  have hlast := h.awaitCrc2_iff hP
  obtain ⟨hcfg, -, -, hfrom, hto⟩ := h.setup
  obtain ⟨hsource, htarget, hpos, hcap, -⟩ := hP
  have hlt := h.inv.decoder.rxn_lt
  have hnext : ∀ k, t.rxn.toNat = k → (A ++ b :: rest).getD k 0 = b := by
    rintro k rfl
    simp [h.rxn_eq]
  cases hst : t.dstate with
  | awaitFrom =>
    have hrxn := (decoderInv_awaitFrom hst).1 h.inv.decoder
    rw [hnext 0 (congrArg BitVec.toNat hrxn), ← hfrom] at hsource
    rw [decStep_awaitFrom hst, if_pos hsource, stored, hrxn]
    exact ⟨_, _, rfl⟩
  | awaitTo =>
    obtain ⟨hrxn, -⟩ := (decoderInv_awaitTo hst).1 h.inv.decoder
    rw [hnext 1 (congrArg BitVec.toNat hrxn), ← hto] at htarget
    rw [decStep_awaitTo hst, if_pos htarget, stored, hrxn]
    exact ⟨_, _, rfl⟩
  | awaitLen =>
    obtain ⟨hrxn, -⟩ := (decoderInv_awaitLen hst).1 h.inv.decoder
    rw [hnext 2 (congrArg BitVec.toNat hrxn)] at hpos hcap
    have hlegal : ¬ (low7 b = 0 ∨ t.cfg.decLenCap < (low7 b).toNat) := by
      rintro (hzero | hlong)
      · rw [hzero] at hpos
        exact absurd hpos (by decide)
      · rw [hcfg] at hlong
        omega
    rw [decStep_awaitLen hst, if_neg hlegal, stored, hrxn]
    exact ⟨_, _, rfl⟩
  | awaitData => exact ⟨_, _, decStep_awaitData hst hlt⟩
  | awaitCrc1 => exact ⟨_, _, decStep_awaitCrc1 hst hlt⟩
  | awaitCrc2 => exact absurd (hlast.1 hst) hrest

end

section
variable {s t : State} {A rest : List Byte} {b : Byte}

theorem Holding.readBytes_stored (h : Holding s A t) :
    readBytes (stored b t).rxbuf 0 (stored b t).rxn.toNat = A ++ [b] := by
  obtain ⟨hordered, -⟩ := h.inv.buffer
  rw [stored_rxn_toNat h.inv.config h.inv.decoder.rxn_lt]
  exact (readBytes_writeByte_end hordered _ b).trans (congrArg (· ++ [b]) h.held)

/-- A byte that is stored is held behind the others. -/
theorem Holding.extend (h : Holding s A t) (hd : s.dead = false) {d : BitVec 7} {st : DState}
    (hs : decStep b t = .next { stored b t with drem := d, dstate := st }) :
    Holding s (A ++ [b]) { stored b t with drem := d, dstate := st } where
  inv := by
    obtain ⟨-, hdead, -⟩ := h.setup
    exact h.inv.decStep (hdead.trans hd) hs
  held := h.readBytes_stored
  rest := by
    obtain ⟨m, n, d', st', rfl⟩ := h.rest
    exact ⟨_, _, _, _, rfl⟩

/-- The last byte of a frame pushes it and leaves the decoder in AWAIT_FROM (R157). -/
theorem Holding.decStep_pushes (h : Holding s A t) (hP : AcceptedItem s (A ++ [b])) :
    ∃ m d, decStep b t =
      .next { qPush (A ++ [b]) s with rxbuf := m, rxn := 0, drem := d, dstate := .awaitFrom } := by
  have hst := (h.awaitCrc2_iff hP).2 rfl
  obtain ⟨-, -, -, -, -, hcrc⟩ := hP
  obtain ⟨-, hrxn⟩ := (decoderInv_awaitCrc2 hst).1 h.inv.decoder
  have hcount := stored_rxn_toNat (b := b) h.inv.config h.inv.decoder.rxn_lt
  obtain ⟨hcfg, -⟩ := h.setup
  have hcfg : (stored b t).cfg = s.cfg := hcfg
  rw [← hcfg] at hcrc
  rw [decStep_awaitCrc2 hst h.inv.decoder.rxn_lt, finishFrame_eq (by omega) h.readBytes_stored.symm, if_pos hcrc]
  obtain ⟨m, n, d, st, rfl⟩ := h.rest
  exact ⟨writeByte m n.toNat b, d, congrArg _ (qPush_decoder _ s _ _ _ _)⟩

/-- The bytes of a frame that the decoder does not hold yet push it. -/
theorem Holding.feed_rest (h : Holding s A t) (hd : s.dead = false) (he : s.expSet = true)
    (hP : AcceptedItem s (A ++ b :: rest)) :
    ∃ m d, feed (b :: rest) t =
      .next { qPush (A ++ b :: rest) s with rxbuf := m, rxn := 0, drem := d, dstate := .awaitFrom } := by
  induction rest generalizing A b t with
  | nil =>
    obtain ⟨-, hdead, hset, -⟩ := h.setup
    obtain ⟨m, d, hs⟩ := h.decStep_pushes hP
    rw [feed_cons, execDecFeed_of_live (hdead.trans hd) (hset.trans he), hs]
    exact ⟨m, d, rfl⟩
  | cons c rest ih =>
    obtain ⟨-, hdead, hset, -⟩ := h.setup
    obtain ⟨d, st, hs⟩ := h.decStep_stores hP (List.cons_ne_nil c rest)
    have hsplit : A ++ b :: c :: rest = A ++ [b] ++ c :: rest := by simp
    rw [feed_cons, execDecFeed_of_live (hdead.trans hd) (hset.trans he), hs, andThen_next, hsplit]
    exact ih (h.extend hd hs) (hsplit ▸ hP)

end

/-- A frame fed from AWAIT_FROM is pushed, and nothing but RXBUF and DREM differs beside (R162). -/
theorem feed_acceptedItem {s : State} {P : List Byte} (h : StateInv s) (hd : s.dead = false) (he : s.expSet = true)
    (hst : s.dstate = .awaitFrom) (hP : AcceptedItem s P) :
    ∃ m d, feed P s = .next { qPush P s with rxbuf := m, drem := d } := by
  cases P with
  | nil =>
    obtain ⟨-, -, -, -, hlen, -⟩ := hP
    cases hlen
  | cons b rest =>
    obtain ⟨m, d, hfeed⟩ := (Holding.start h hst).feed_rest hd he hP
    have hrxn := (decoderInv_awaitFrom hst).1 h.decoder
    refine ⟨m, d, hfeed.trans ?_⟩
    rw [← hrxn, ← hst, ← qPush_rxn s (b :: rest), ← qPush_dstate s (b :: rest)]
    rfl

/-! ### Valid frames, and garbage before one -/

/-- Settles O24: each frame is an item that the decoder emits, and after the first the decoder is in AWAIT_FROM again
under the same expectations. -/
theorem framesFedArePushedInOrder : Obligations.FramesFedArePushedInOrder := by
  intro s P1 P2 f1 f2 h hd he hst hP1 hcap1 hP2 hcap2
  have hacc1 := acceptedItem_of_unpackRs hP1 hcap1
  have hacc2 := acceptedItem_of_unpackRs hP2 hcap2
  obtain ⟨m, d, hfirst⟩ := feed_acceptedItem h hd he hst hacc1
  have hst' : (qPush P1 s).dstate = .awaitFrom := (qPush_dstate s P1).trans hst
  refine ⟨⟨_, hfirst, hst', rfl⟩, ?_⟩
  obtain ⟨m', d', hsecond⟩ := feed_acceptedItem (s := { qPush P1 s with rxbuf := m, drem := d }) (P := P2)
    (h.runInstrs hfirst) ((qPush_dead s P1).trans hd) ((qPush_expSet s P1).trans he) hst' (by simpa using hacc2)
  rw [feed_append, hfirst, andThen_next, hsecond, qPush_decoder P2 (qPush P1 s)]
  exact ⟨_, rfl, hst', by simp⟩

/-- A byte that is no from-id is dropped in AWAIT_FROM (R152). -/
theorem feed_garbage {s : State} {G : List Byte} (hd : s.dead = false) (he : s.expSet = true)
    (hst : s.dstate = .awaitFrom) (hG : ∀ g ∈ G, idMatch g s.expFrom wildcardRs = false) : feed G s = .next s := by
  induction G with
  | nil => rfl
  | cons g G ih =>
    obtain ⟨hg, hG⟩ := List.forall_mem_cons.1 hG
    rw [feed_cons, execDecFeed_of_live hd he, decStep_awaitFrom hst, if_neg (Bool.eq_false_iff.1 hg), andThen_next]
    exact ih hG

/-- Settles O25: the garbage leaves the decoder in AWAIT_FROM, where the frame is pushed. -/
theorem garbageThenFrameIsPushed : Obligations.GarbageThenFrameIsPushed := by
  intro s G P f h hd he hst hwild hG hP hcap
  have hnoId : ∀ g ∈ G, idMatch g s.expFrom wildcardRs = false := fun g hg => by
    obtain ⟨hne, hne'⟩ := hG g hg
    rw [← Bool.not_eq_true, idMatch_iff]
    rintro (heq | heq | heq)
    · exact hne heq
    · exact hne' heq
    · exact hwild heq
  obtain ⟨m, d, hfeed⟩ := feed_acceptedItem h hd he hst (acceptedItem_of_unpackRs hP hcap)
  rw [feed_append, feed_garbage hd he hst hnoId, andThen_next, hfeed]
  exact ⟨_, rfl, (qPush_dstate s P).trans hst, rfl⟩

end Sys2Proof.Machine
end

section
/-! SUPPORT. The queue, the arbiter and transport control, one equation for each thing that an operation, a command or
an event does (spec/43_queue_transport.md R181 to R197, spec/60_exceptions.md R264). -/

namespace Sys2Proof.Machine

section
variable {s : State}

/-! ### The pending read is completed -/

/-- The pending read of the command port is answered there (R31, R40). -/
theorem completeRead_of_commandPort (hc : s.respChan = .commandPort) (r : Reply) : completeRead r s =
    { s with rdPend := false, rdTmr := 0, respChan := .idle, resp := s.resp ++ [⟨0x20, r⟩] } := by
  simp [completeRead, hc]

/-- The pending read of the host procedure in progress is answered, and the answer is on its way there (R31, R40). -/
theorem completeRead_of_client (hc : s.respChan = .client) (r : Reply) : completeRead r s =
    { s with rdPend := false, rdTmr := 0, respChan := .idle, resp := s.resp ++ [⟨0x20, r⟩],
             client := { s.client with inbox := some r } } := by
  simp [completeRead, hc]

/-! ### `q_push` -/

theorem qPush_of_pending (hp : s.rdPend = true) (item : List Byte) :
    qPush item s = completeRead (respond .ok (countByte item :: item)) s := if_pos hp

theorem qPush_of_room (hp : s.rdPend = false) (hlt : s.q.length < s.cfg.qCap) (item : List Byte) :
    qPush item s = { s with q := s.q ++ [item] } := by
  simp [qPush, hp, hlt.ne]

theorem qPush_of_full (hp : s.rdPend = false) (hfull : s.q.length = s.cfg.qCap) (item : List Byte) :
    qPush item s = { s with q := s.q.drop 1 ++ [item] } := by
  simp [qPush, hp, hfull]

/-! ### RX.CHUNK -/

theorem exec_rxChunk_of_ignored {bytes : List Byte} (h : s.dead = true ∨ bytes = []) :
    exec (.rxChunk bytes) s = .next s := by
  simp [exec, execRxChunk, h]

theorem exec_rxChunk_of_decoder {bytes : List Byte} (hd : s.dead = false) (hne : bytes ≠ [])
    (hatt : s.decAttached = true) :
    exec (.rxChunk bytes) s = .next { s with rxRest := s.rxRest ++ bytes } := by
  simp [exec, execRxChunk, hd, hne, hatt]

theorem exec_rxChunk_of_raw {bytes : List Byte} (hd : s.dead = false) (hne : bytes ≠ [])
    (hatt : s.decAttached = false) (hlen : bytes.length ≤ s.cfg.itemMax) :
    exec (.rxChunk bytes) s = .next (qPush bytes s) := by
  simp [exec, execRxChunk, hd, hne, hatt, hlen]

/-! ### Q.READ -/

section
variable {who : RespChan} {t : Word}

theorem qRead_of_dead (hd : s.dead = true) : qRead who t s = (s, some (raise .dead)) := if_pos hd

theorem qRead_of_item {item : List Byte} {rest : List (List Byte)} (hd : s.dead = false) (hq : s.q = item :: rest) :
    qRead who t s = ({ s with q := rest }, some (respond .ok (countByte item :: item))) := by
  simp [qRead, hd, hq]

theorem qRead_of_no_wait (hd : s.dead = false) (hq : s.q = []) (ht : t = 0) :
    qRead who t s = (s, some (raise .none)) := by
  simp [qRead, hd, hq, ht]

theorem qRead_of_wait (hd : s.dead = false) (hq : s.q = []) (ht : t ≠ 0) : qRead who t s = (armRead who t s, none) := by
  simp only [qRead, hd, hq, if_neg ht, Bool.false_eq_true, if_false]

end

section
variable {hi lo : Byte} {u : State}

/-- While a read is pending the bytes of the Q.READ go back to the port (R186). -/
theorem exec_qRead_of_pending (hp : s.rdPend = true) :
    exec (.qRead hi lo) s = .next { s with port := [0x20, hi, lo] ++ s.port } := if_pos hp

theorem exec_qRead_of_answered {r : Reply} (hp : s.rdPend = false)
    (h : qRead .commandPort (timeoutOf hi lo) s = (u, some r)) : exec (.qRead hi lo) s = .next (reply 0x20 r u) := by
  simp [exec, execQRead, hp, h]

theorem exec_qRead_of_unanswered (hp : s.rdPend = false) (h : qRead .commandPort (timeoutOf hi lo) s = (u, none)) :
    exec (.qRead hi lo) s = .next u := by
  simp [exec, execQRead, hp, h]

/-- The timeout operand is 0 when both its bytes are (R87). -/
theorem timeoutOf_eq_zero_iff (hi lo : Byte) : timeoutOf hi lo = 0 ↔ 256 * hi.toNat + lo.toNat = 0 := by
  rw [← timeoutOf_toNat, ← BitVec.toNat_inj]
  rfl

/-- A Q.READ with a timeout pends on an empty queue (R186). -/
theorem exec_qRead_of_wait (hp : s.rdPend = false) (hd : s.dead = false) (hq : s.q = [])
    (ht : 256 * hi.toNat + lo.toNat ≠ 0) :
    exec (.qRead hi lo) s = .next (armRead .commandPort (BitVec.ofNat 16 (256 * hi.toNat + lo.toNat)) s) := by
  have hwait : timeoutOf hi lo ≠ 0 := fun h => ht ((timeoutOf_eq_zero_iff hi lo).mp h)
  rw [exec_qRead_of_unanswered hp (qRead_of_wait hd hq hwait), timeoutOf_eq_ofNat]

end

/-! ### TICK -/

theorem exec_tick (s : State) : exec .tick s = .next (tickTimer s) := rfl

theorem tickTimer_of_idle (hp : s.rdPend = false) : tickTimer s = s := if_neg (Bool.eq_false_iff.mp hp)

theorem tickTimer_of_two_le (hp : s.rdPend = true) (h : 2 ≤ s.rdTmr.toNat) :
    tickTimer s = { s with rdTmr := s.rdTmr - 1 } := by
  have hne : s.rdTmr - 1 ≠ 0 := by bv_omega
  exact (if_pos hp).trans (if_neg hne)

/-- The last tick of the timer completes the read (R189). -/
theorem tickTimer_of_one (hp : s.rdPend = true) (h : s.rdTmr.toNat = 1) :
    tickTimer s = completeRead (raise .none) s := by
  have hzero : s.rdTmr - 1 = 0 := by bv_omega
  exact (if_pos hp).trans (if_pos hzero)

/-! ### FLUSH -/

theorem exec_flush (fl frm dst : Byte) (s : State) :
    exec (.flush fl frm dst) s = .next (reply 0x21 (flush fl frm dst s).2 (flush fl frm dst s).1) := rfl

theorem flush_of_illegal {fl : Byte} (hfl : 4 ≤ fl.toNat) (frm dst : Byte) : flush fl frm dst s = (s, raise .ill) :=
  if_pos (by rw [flIllegal_eq_toNat, decide_eq_true hfl])

theorem flIllegal_of_lt {fl : Byte} (h : fl.toNat < 4) : flIllegal fl = false := by
  rw [flIllegal_eq_toNat, decide_eq_false_iff_not]
  omega

theorem flush_of_dead {fl : Byte} (hfl : fl.toNat < 4) (hd : s.dead = true) (frm dst : Byte) :
    flush fl frm dst s = (s, raise .dead) := by
  simp [flush, flIllegal_of_lt hfl, hd]

theorem flBit0_eq_decide (fl : Byte) : flBit0 fl = decide (fl.toNat % 2 = 1) := by
  rw [Bool.eq_iff_iff, decide_eq_true_iff, ← Bool.toNat_eq_one, flBit0_toNat]

theorem flBit1_of_lt {fl : Byte} (h : fl.toNat < 4) : flBit1 fl = decide (2 ≤ fl.toNat) := by
  rw [Bool.eq_iff_iff, decide_eq_true_iff, ← Bool.toNat_eq_one, flBit1_toNat]
  omega

theorem both_bits_of_lt {n : Nat} (h : n < 4) : (decide (n % 2 = 1) && decide (2 ≤ n)) = decide (n = 3) := by
  rw [← Bool.decide_and, decide_eq_decide]
  omega

/-- What a legal FLUSH writes on a live block, its bits read off the value of `fl` (R191, R192). -/
theorem flush_of_live {fl : Byte} (hfl : fl.toNat < 4) (hd : s.dead = false) (frm dst : Byte) : flush fl frm dst s =
    ({ s with q := [], rxn := 0, dstate := .awaitFrom,
              expFrom := if fl.toNat % 2 = 1 then frm else s.expFrom,
              expTo := if 2 ≤ fl.toNat then dst else s.expTo,
              expSet := decide (fl.toNat = 3) || s.expSet }, respond .ok []) := by
  simp [flush, clearDecoder, flIllegal_of_lt hfl, hd, flBit0_eq_decide, flBit1_of_lt hfl, both_bits_of_lt hfl]

/-! ### TX.WRITE and IS.ERR -/

theorem txWrite_of_dead (hd : s.dead = true) (bytes : List Byte) : txWrite bytes s = (s, raise .dead) := if_pos hd

theorem txWrite_of_live (hd : s.dead = false) (bytes : List Byte) :
    txWrite bytes s = (emit bytes s, respond .ok []) := if_neg (Bool.eq_false_iff.mp hd)

theorem exec_txWrite (bytes : List Byte) (s : State) :
    exec (.txWrite bytes) s = .next (reply 0x22 (txWrite bytes s).2 (txWrite bytes s).1) := rfl

theorem exec_isErr (s : State) : exec .isErr s = .next (reply 0x24 (isErrReply s) s) := rfl

/-! ### The terminal condition -/

theorem exec_close (s : State) : exec .close s = .next (reply 0x23 (respond .ok []) (enterTerminal s)) := rfl

theorem exec_ioErr (s : State) : exec .ioErr s = .next (enterTerminal s) := rfl

/-- The registers that the terminal entry writes (R264), before the pending read is completed. -/
def deadened (s : State) : State := { s with dead := true, q := [], rxn := 0, dstate := .awaitFrom }

theorem enterTerminal_of_pending (hp : s.rdPend = true) :
    enterTerminal s = completeRead (raise .dead) (deadened s) := if_pos hp

theorem enterTerminal_of_idle (hp : s.rdPend = false) : enterTerminal s = deadened s :=
  if_neg (Bool.eq_false_iff.mp hp)

/-- The second entry finds everything as the first has left it (R264). -/
theorem enterTerminal_of_terminal (hd : s.dead = true) (hp : s.rdPend = false) (hq : s.q = []) (hn : s.rxn = 0)
    (hst : s.dstate = .awaitFrom) : enterTerminal s = s := by
  rw [enterTerminal_of_idle hp, deadened, ← hd, ← hq, ← hn, ← hst]

end

end Sys2Proof.Machine
end

section
/-! The queue, the arbiter and transport control, command by command (spec/43_queue_transport.md R180 to R197). -/

namespace Sys2Proof.Machine

/-! ### The queue -/

/-- Settles O28: the three paths of a chunk, and on the raw path the three things `q_push` does with it. -/
theorem rxChunkFillsTheQueue : Obligations.RxChunkFillsTheQueue := by
  intro bytes s
  refine ⟨exec_rxChunk_of_ignored, exec_rxChunk_of_decoder, fun hd hne hatt hlen => ?raw⟩
  rw [exec_rxChunk_of_raw hd hne hatt hlen]
  refine ⟨fun hp hc => ?port, fun hp hc => ?client, fun hp hlt => ?room, fun hp hfull => ?full⟩
  case port =>
    rw [qPush_of_pending hp, completeRead_of_commandPort hc]
    rfl
  case client =>
    rw [qPush_of_pending hp, completeRead_of_client hc]
    rfl
  case room => rw [qPush_of_room hp hlt]
  case full => rw [qPush_of_full hp hfull]

/-- Settles O29: the read is held, or accepted with one of the four outcomes of R186. -/
theorem qReadServesOrPends : Obligations.QReadServesOrPends := by
  intro hi lo s
  refine ⟨rfl, exec_qRead_of_pending, ?dead, ?item, ?noWait, exec_qRead_of_wait⟩
  case dead => exact fun hp hd => exec_qRead_of_answered hp (qRead_of_dead hd)
  case item => exact fun item rest hp hd hq => exec_qRead_of_answered hp (qRead_of_item hd hq)
  case noWait =>
    intro hp hd hq ht
    exact exec_qRead_of_answered hp (qRead_of_no_wait hd hq ((timeoutOf_eq_zero_iff hi lo).mpr ht))

/-- Settles O30: the port takes the Q.READ's bytes off and puts them back. -/
theorem secondReadIsHeldAtThePort : Obligations.SecondReadIsHeldAtThePort := by
  intro s ts hi lo behind hp hport hs
  have hdecode : decodeCommand s.port = .ok (.qRead hi lo) behind := by
    rw [hport]
    rfl
  calc step s
      = exec (.qRead hi lo) { s with sched := ts, port := behind } := by
        rw [step_of_sched hs]
        exact portTurn_of_command hdecode
    _ = .next { s with sched := ts, port := [0x20, hi, lo] ++ behind } := exec_qRead_of_pending hp
    _ = .next { s with sched := ts } := by rw [← hport]

/-! ### The timer -/

/-- Settles O31: the timer counts down to 1, and the tick after that completes the read. -/
theorem tickCountsDownThePendingRead : Obligations.TickCountsDownThePendingRead := by
  refine ⟨rfl, fun s hp => ?idle, fun s hp h => ?counts, fun s hp h hc => ?port, fun s hp h hc => ?client,
    fun s hinv hp => ?positive⟩
  case idle => rw [exec_tick, tickTimer_of_idle hp]
  case counts => rw [exec_tick, tickTimer_of_two_le hp h]
  case port =>
    rw [exec_tick, tickTimer_of_one hp h, completeRead_of_commandPort hc]
    rfl
  case client =>
    rw [exec_tick, tickTimer_of_one hp h, completeRead_of_client hc]
    rfl
  case positive =>
    obtain ⟨hpending, -⟩ := hinv.read
    obtain ⟨-, htmr⟩ := hpending hp
    bv_omega

/-! ### FLUSH and TX.WRITE -/

/-- Settles O33: the three things FLUSH does, with the bits of `fl` read off its value. -/
theorem flushEmptiesAndRepoints : Obligations.FlushEmptiesAndRepoints := by
  intro fl frm dst s
  refine ⟨rfl, fun hfl => ?ill, fun hfl hd => ?dead, fun hfl hd => ?live⟩ <;> rw [exec_flush]
  case ill =>
    rw [flush_of_illegal hfl]
    rfl
  case dead =>
    rw [flush_of_dead hfl hd]
    rfl
  case live =>
    rw [flush_of_live hfl hd]
    rfl

/-- Settles O35: the two things TX.WRITE does. -/
theorem txWriteEmitsItsBytes : Obligations.TxWriteEmitsItsBytes := by
  intro bytes s
  refine ⟨rfl, fun hd => ?dead, fun hd => ?live⟩ <;> rw [exec_txWrite]
  case dead =>
    rw [txWrite_of_dead hd]
    rfl
  case live =>
    rw [txWrite_of_live hd]
    rfl

/-! ### The terminal condition -/

/-- Settles O36: the terminal entry from a state without and with a pending read, and from one that has entered. -/
theorem closeSetsTheTerminalFlag : Obligations.CloseSetsTheTerminalFlag := by
  refine ⟨rfl, fun s hp => ?idle, fun s hp hc => ?port, fun s hp hc => ?client, fun s t h => ?again⟩
  case idle =>
    rw [exec_close, enterTerminal_of_idle hp]
    rfl
  case port =>
    rw [exec_close, enterTerminal_of_pending hp, completeRead_of_commandPort (s := deadened s) hc]
    simp [reply, deadened, respond, raise]
  case client =>
    rw [exec_close, enterTerminal_of_pending hp, completeRead_of_client (s := deadened s) hc]
    simp [reply, deadened, respond, raise]
  case again =>
    cases h
    rw [exec_close, enterTerminal_of_terminal] <;> simp [reply, respond]

/-- Settles O37: the entry of a CLOSE without its answer. -/
theorem ioErrSetsTheTerminalFlag : Obligations.IoErrSetsTheTerminalFlag := by
  refine ⟨rfl, fun s hp => ?idle, fun s hp hc => ?port, fun s hp hc => ?client, fun s t h => ?again⟩
  case idle =>
    rw [exec_ioErr, enterTerminal_of_idle hp]
    rfl
  case port =>
    rw [exec_ioErr, enterTerminal_of_pending hp, completeRead_of_commandPort (s := deadened s) hc]
    rfl
  case client =>
    rw [exec_ioErr, enterTerminal_of_pending hp, completeRead_of_client (s := deadened s) hc]
    rfl
  case again =>
    cases h
    rw [exec_ioErr, enterTerminal_of_terminal] <;> simp

/-- Settles O38: IS.ERR reads DEAD, which a CLOSE has set. -/
theorem isErrReadsTheTerminalFlag : Obligations.IsErrReadsTheTerminalFlag := by
  refine ⟨rfl, exec_isErr, fun s t h => ?afterClose⟩
  cases h
  rw [exec_isErr]
  simp [isErrReply, reply, respond]

end Sys2Proof.Machine
end

section
/-! SUPPORT. A read that pends: what each step leaves of it, and the three things that end the wait, which are a push,
the terminal condition and the last tick (spec/43_queue_transport.md R186, R189, R190). -/

namespace Sys2Proof.Machine

section
variable {s t u : State}

/-! ### What is kept -/

/-- The procedure in progress waits for the response of its Q.READ, which has not come (R227). -/
def HostWaits (s : State) : Prop :=
  (∃ p, s.client.proc = some p ∧ p.stage.waits = true) ∧ s.client.inbox = none

/-- The pending read, its timer and the reader whom the response is owed are in `t` those of `s`, and a procedure that
waits for the response goes on waiting. -/
structure ReadKept (s t : State) : Prop where
  rdPend : t.rdPend = s.rdPend
  rdTmr : t.rdTmr = s.rdTmr
  respChan : t.respChan = s.respChan
  host : HostWaits s → t.client.proc = s.client.proc ∧ t.client.inbox = none

theorem ReadKept.of_eq (hp : t.rdPend = s.rdPend) (htmr : t.rdTmr = s.rdTmr) (hchan : t.respChan = s.respChan)
    (hproc : t.client.proc = s.client.proc) (hinbox : t.client.inbox = s.client.inbox) : ReadKept s t :=
  ⟨hp, htmr, hchan, fun ⟨_, hnone⟩ => ⟨hproc, hinbox.trans hnone⟩⟩

theorem ReadKept.refl (s : State) : ReadKept s s := .of_eq rfl rfl rfl rfl rfl

theorem ReadKept.hostWaits (h : ReadKept s t) (hw : HostWaits s) : HostWaits t := by
  obtain ⟨hproc, hinbox⟩ := h.host hw
  obtain ⟨⟨p, hp, hst⟩, -⟩ := hw
  exact ⟨⟨p, hproc.trans hp, hst⟩, hinbox⟩

theorem ReadKept.trans (h : ReadKept s t) (h' : ReadKept t u) : ReadKept s u where
  rdPend := h'.rdPend.trans h.rdPend
  rdTmr := h'.rdTmr.trans h.rdTmr
  respChan := h'.respChan.trans h.respChan
  host hw := by
    obtain ⟨hproc, -⟩ := h.host hw
    obtain ⟨hproc', hinbox⟩ := h'.host (h.hostWaits hw)
    exact ⟨hproc'.trans hproc, hinbox⟩

theorem ReadKept.reply (h : ReadKept s t) (code : Byte) (r : Reply) : ReadKept s (reply code r t) :=
  h.trans (.of_eq rfl rfl rfl rfl rfl)

theorem flush_readKept (fl frm dst : Byte) (s : State) : ReadKept s (flush fl frm dst s).1 := by
  obtain ⟨-, h⟩ | ⟨-, -, h⟩ | ⟨-, -, h⟩ := flush_cases fl frm dst s <;> rw [h] <;> exact .of_eq rfl rfl rfl rfl rfl

theorem txWrite_readKept (bytes : List Byte) (s : State) : ReadKept s (txWrite bytes s).1 := by
  obtain ⟨-, h⟩ | ⟨-, h⟩ := txWrite_cases bytes s <;> rw [h] <;> exact .of_eq rfl rfl rfl rfl rfl

/-! ### The host's turns -/

theorem clientTurn_of_not_ready (h : clientReady s = false) : clientTurn s = s := by
  unfold clientTurn
  split
  · rfl
  · simp [h]

theorem HostWaits.not_ready (h : HostWaits s) : clientReady s = false := by
  obtain ⟨⟨⟨ctx, stage⟩, hproc, hst⟩, hinbox⟩ := h
  cases stage with
  | pendWait => simp [clientReady, hproc, hinbox]
  | connectFlush | sendQuery | sendPack | sendWrite | pendRead | pendUnpack => cases hst

/-- The host issues no Q.READ while a read is pending (log 24). -/
theorem not_ready_of_pendRead {ctx : Ctx} {rw : Bool} {d : Descriptor} {timeout : Word} (hp : s.rdPend = true)
    (hproc : s.client.proc = some ⟨ctx, .pendRead rw d timeout⟩) : clientReady s = false := by
  simp [clientReady, hproc, hp]

theorem HostCommand.readKept {stage : Stage} (h : HostCommand s stage u) : ReadKept s u := by
  cases h with
  | flush targetId auxId r =>
    have hretarget : ReadKept s (retarget targetId auxId s) := .of_eq rfl rfl rfl rfl rfl
    exact (hretarget.trans (flush_readKept ..)).reply ..
  | write frame r => exact (txWrite_readKept frame s).reply ..
  | dequeue | answer => exact .of_eq rfl rfl rfl rfl rfl
  | take rw d r hr =>
    refine ⟨rfl, rfl, rfl, fun ⟨_, hnone⟩ => ?_⟩
    rw [hr] at hnone
    cases hnone

/-- Going on and returning write the host's own fields only. -/
theorem ProcMoves.readKept {ctx : Ctx} (hm : ProcMoves ctx u t) (h : ReadKept s u) (hw : ¬ HostWaits s) :
    ReadKept s t := by
  obtain ⟨hp, htmr, hchan, -⟩ := h
  cases hm <;> exact ⟨hp, htmr, hchan, fun hs => absurd hs hw⟩

theorem HostTurn.readKept {p : Proc} (h : HostTurn p s t) (hp : s.rdPend = true) (hproc : s.client.proc = some p)
    (hready : clientReady s = true) : ReadKept s t := by
  cases h with
  | idle => exact .refl s
  | pends rw d timeout hst =>
    obtain ⟨ctx, stage⟩ := p
    cases hst
    simp [not_ready_of_pendRead hp hproc] at hready
  | answered u _ hcommand hmoves =>
    have hw : ¬ HostWaits s := fun hw => by simp [hw.not_ready] at hready
    exact hmoves.readKept hcommand.readKept hw

theorem clientTurn_readKept (hp : s.rdPend = true) : ReadKept s (clientTurn s) := by
  cases hready : clientReady s with
  | false =>
    rw [clientTurn_of_not_ready hready]
    exact .refl s
  | true =>
    obtain heq | ⟨p, hproc, hturn⟩ := clientTurn_cases s
    · rw [heq]
      exact .refl s
    · exact hturn.readKept hp hproc hready

theorem beginCall_readKept (hp : s.rdPend = true) (i : Instr) (p : Proc) : ReadKept s (beginCall i p s) := by
  obtain ⟨⟨hnone, -⟩, heq⟩ | ⟨-, heq⟩ := beginCall_cases i p s <;> rw [heq]
  · obtain ⟨hp', htmr, hchan, -⟩ := clientTurn_readKept
      (s := { s with client := { s.client with lock := true, holder := s.client.caller, proc := some p } }) hp
    refine ⟨hp', htmr, hchan, fun ⟨⟨_, hproc, _⟩, _⟩ => ?_⟩
    rw [hnone] at hproc
    cases hproc
  · exact .of_eq rfl rfl rfl rfl rfl

theorem drawSlots_readKept (d : Descriptor) (a b : Byte) (s : State) : ReadKept s (drawSlots d a b s) := by
  obtain h | h := drawSlots_cases d a b s <;> rw [h] <;> exact .of_eq rfl rfl rfl rfl rfl

/-! ### The instructions -/

/-- Every instruction that is no push, no terminal event and no tick runs, and keeps the pending read (R190). -/
theorem exec_readKept {i : Instr} (hp : s.rdPend = true) (hpush : ¬ IsPush i) (hterm : ¬ IsTerminal i)
    (htick : i ≠ .tick) : ∃ t, exec i s = .next t ∧ ReadKept s t := by
  cases i with
  | rxChunk bytes => exact absurd (.inl ⟨bytes, rfl⟩) hpush
  | decFeed b => exact absurd (.inr ⟨b, rfl⟩) hpush
  | close => exact absurd (.inl rfl) hterm
  | ioErr => exact absurd (.inr rfl) hterm
  | tick => exact absurd rfl htick
  | crcClr | crcUpd | crcGet | crcBuf | packRs | packCan | unpackRs | unpackCan | isErr =>
    exact ⟨_, rfl, .of_eq rfl rfl rfl rfl rfl⟩
  | qRead => exact ⟨_, exec_qRead_of_pending hp, .of_eq rfl rfl rfl rfl rfl⟩
  | flush fl frm dst => exact ⟨_, exec_flush fl frm dst s, (flush_readKept fl frm dst s).reply ..⟩
  | txWrite bytes => exact ⟨_, exec_txWrite bytes s, (txWrite_readKept bytes s).reply ..⟩
  | connectTo | send | pend | connectDevice => exact ⟨_, rfl, beginCall_readKept hp ..⟩
  | getRange d a b =>
    have hdraw := drawSlots_readKept d a b s
    exact ⟨_, rfl, hdraw.trans (beginCall_readKept (hdraw.rdPend.trans hp) ..)⟩

/-- A frame that ends without completing the pending read has pushed nothing (R157, R181). -/
theorem finishFrame_readKept (ht : (finishFrame s).rdPend = true) : ReadKept s (finishFrame s) := by
  obtain heq | ⟨item, heq⟩ := finishFrame_cases s <;> rw [heq] at ht ⊢
  · exact .of_eq rfl rfl rfl rfl rfl
  · simp at ht

theorem decStep_readKept {b : Byte} (hs : decStep b s = .next t) (ht : t.rdPend = true) : ReadKept s t := by
  obtain ⟨m, n, d, st, rfl | rfl⟩ := decStep_eq_next hs
  · exact .of_eq rfl rfl rfl rfl rfl
  · have hstored : ReadKept s { s with rxbuf := m, rxn := n, drem := d, dstate := st } := .of_eq rfl rfl rfl rfl rfl
    exact hstored.trans (finishFrame_readKept ht)

theorem execRxChunk_readKept {bytes : List Byte} (hs : execRxChunk bytes s = .next t) (ht : t.rdPend = true) :
    ReadKept s t := by
  unfold execRxChunk at hs
  split at hs
  · cases hs
    exact .refl s
  split at hs
  · cases hs
    exact .of_eq rfl rfl rfl rfl rfl
  split at hs
  · cases hs
    simp at ht
  · cases hs

/-- RX.CHUNK and DEC.FEED keep a read that they do not complete (R181). -/
theorem IsPush.readKept {i : Instr} (hi : IsPush i) (hs : exec i s = .next t) (ht : t.rdPend = true) :
    ReadKept s t := by
  obtain ⟨bytes, rfl⟩ | ⟨b, rfl⟩ := hi
  · exact execRxChunk_readKept hs ht
  obtain heq | heq | heq := exec_decFeed_cases b s <;> rw [heq] at hs
  · cases hs
    exact .refl s
  · exact decStep_readKept hs ht
  · cases hs

/-- CLOSE and IO.ERR end the wait (R195, R196). -/
theorem IsTerminal.rdPend {i : Instr} (hi : IsTerminal i) (hs : exec i s = .next t) : t.rdPend = false := by
  obtain rfl | rfl := hi <;> cases hs <;> exact enterTerminal_rdPend s

/-- What an instruction other than a tick leaves of a read that still pends after it. -/
theorem exec_readKept_of_pending {i : Instr} (hp : s.rdPend = true) (htick : i ≠ .tick) (hs : exec i s = .next t)
    (ht : t.rdPend = true) : ReadKept s t := by
  by_cases hpush : IsPush i
  · exact hpush.readKept hs ht
  by_cases hterm : IsTerminal i
  · simp [hterm.rdPend hs] at ht
  · obtain ⟨u, hu, hkept⟩ := exec_readKept hp hpush hterm htick
    rw [hu] at hs
    cases hs
    exact hkept

/-! ### The ticks alone -/

theorem ticks_succ_of_next {n : Nat} (h : exec .tick s = .next t) : ticks (n + 1) s = ticks n t :=
  runInstrs_cons_of_next h

/-- Ticks below the timer's value count it down and change nothing else (R189). -/
theorem ticks_of_lt {k : Nat} (hp : s.rdPend = true) (hk : k < s.rdTmr.toNat) :
    ticks k s = .next { s with rdTmr := BitVec.ofNat 16 (s.rdTmr.toNat - k) } := by
  induction k generalizing s with
  | zero => simp [ticks, runInstrs]
  | succ k ih =>
    have htick : exec .tick s = .next { s with rdTmr := s.rdTmr - 1 } := by
      rw [exec_tick, tickTimer_of_two_le hp (by omega)]
    have hless : (s.rdTmr - 1).toNat = s.rdTmr.toNat - 1 := by bv_omega
    rw [ticks_succ_of_next htick, ih (s := { s with rdTmr := s.rdTmr - 1 }) hp (by rw [hless]; omega)]
    simp only [hless, Nat.sub_sub, Nat.add_comm 1 k]

/-- As many ticks as the timer's value complete the read (R189). -/
theorem ticks_of_eq {k : Nat} (hp : s.rdPend = true) (hk : s.rdTmr.toNat = k + 1) :
    ticks (k + 1) s = .next (completeRead (raise .none) s) := by
  induction k generalizing s with
  | zero =>
    have htick : exec .tick s = .next (completeRead (raise .none) s) := by rw [exec_tick, tickTimer_of_one hp hk]
    rw [ticks_succ_of_next htick]
    rfl
  | succ k ih =>
    have htick : exec .tick s = .next { s with rdTmr := s.rdTmr - 1 } := by
      rw [exec_tick, tickTimer_of_two_le hp (by omega)]
    rw [ticks_succ_of_next htick]
    exact ih (s := { s with rdTmr := s.rdTmr - 1 }) hp (by bv_omega)

/-! ### The ticks with any steps between them -/

/-- What `k` ticks have left in `u` of the read that pended in `t`. -/
structure Remains (t : State) (k : Nat) (u : State) : Prop where
  rdPend : u.rdPend = true
  rdTmr : u.rdTmr.toNat + k = t.rdTmr.toNat
  positive : 1 ≤ u.rdTmr.toNat
  respChan : u.respChan = t.respChan
  host : HostWaits t → u.client.proc = t.client.proc ∧ u.client.inbox = none

section
variable {k : Nat} {v : State}

theorem Remains.start (hp : t.rdPend = true) (htmr : 1 ≤ t.rdTmr.toNat) : Remains t 0 t :=
  ⟨hp, rfl, htmr, rfl, fun ⟨_, hinbox⟩ => ⟨rfl, hinbox⟩⟩

theorem Remains.kept (h : Remains t k u) (hk : ReadKept u v) : Remains t k v where
  rdPend := hk.rdPend.trans h.rdPend
  rdTmr := by rw [hk.rdTmr, h.rdTmr]
  positive := by rw [hk.rdTmr]; exact h.positive
  respChan := hk.respChan.trans h.respChan
  host hw := by
    obtain ⟨hproc, hinbox⟩ := h.host hw
    obtain ⟨⟨p, hp, hst⟩, -⟩ := hw
    obtain ⟨hproc', hinbox'⟩ := hk.host ⟨⟨p, hproc.trans hp, hst⟩, hinbox⟩
    exact ⟨hproc'.trans hproc, hinbox'⟩

/-- A tick that is not the last counts the timer down. -/
theorem Remains.exec_tick_of_lt (h : Remains t k u) (hk : k + 1 < t.rdTmr.toNat) :
    exec .tick u = .next { u with rdTmr := u.rdTmr - 1 } := by
  have htmr := h.rdTmr
  rw [exec_tick, tickTimer_of_two_le h.rdPend (by omega)]

/-- The last tick answers the read NONE. -/
theorem Remains.exec_last_tick (h : Remains t k u) (hk : k + 1 = t.rdTmr.toNat) :
    exec .tick u = .next (completeRead (raise .none) u) := by
  have htmr := h.rdTmr
  rw [exec_tick, tickTimer_of_one h.rdPend (by omega)]

theorem Remains.lt (h : Remains t k u) : k < t.rdTmr.toNat := by
  have htmr := h.rdTmr
  have hpos := h.positive
  omega

theorem Remains.tick (h : Remains t k u) (hv : exec .tick u = .next v) (hp : v.rdPend = true) :
    Remains t (k + 1) v := by
  obtain hlast | hless : k + 1 = t.rdTmr.toNat ∨ k + 1 < t.rdTmr.toNat := by
    have hlt := h.lt
    omega
  · rw [h.exec_last_tick hlast] at hv
    cases hv
    simp at hp
  · rw [h.exec_tick_of_lt hless] at hv
    cases hv
    have htmr := h.rdTmr
    exact ⟨hp, by bv_omega, by bv_omega, h.respChan, h.host⟩

/-- As long as the read pends its timer holds what is left, whatever runs between the ticks (R190). -/
theorem PendsFor.remains (h : PendsFor t k u) (hp : t.rdPend = true) (htmr : 1 ≤ t.rdTmr.toNat) : Remains t k u := by
  induction h with
  | start => exact .start hp htmr
  | other i _ htick hexec hpend ih => exact ih.kept (exec_readKept_of_pending ih.rdPend htick hexec hpend)
  | tick _ hexec hpend ih => exact ih.tick hexec hpend
  | client _ ih => exact ih.kept (clientTurn_readKept ih.rdPend)
  | undefinedCode code _ ih => exact ih.kept ((ReadKept.refl _).reply code _)
  | moved _ _ _ _ _ _ _ _ _ ih => exact ih.kept (.of_eq rfl rfl rfl rfl rfl)

/-- Only a push, a terminal event and the last tick end the wait (R190). -/
theorem Remains.goes_on (h : Remains t k u) {i : Instr} (hpush : ¬ IsPush i) (hterm : ¬ IsTerminal i)
    (hlast : i = .tick → k + 1 < t.rdTmr.toNat) : ∃ v, exec i u = .next v ∧ v.rdPend = true := by
  by_cases htick : i = .tick
  · subst htick
    exact ⟨_, h.exec_tick_of_lt (hlast rfl), h.rdPend⟩
  · obtain ⟨v, hv, hkept⟩ := exec_readKept h.rdPend hpush hterm htick
    exact ⟨v, hv, hkept.rdPend.trans h.rdPend⟩

end

end

end Sys2Proof.Machine
end

section
/-! The timeout of a Q.READ (spec/43_queue_transport.md R190). -/

namespace Sys2Proof.Machine

/-- Settles O32: the ticks count down the timeout that the acceptance has put into the timer, and no step that leaves
the read pending touches the timer. -/
theorem readTimesOutAtTheLastTick : Obligations.ReadTimesOutAtTheLastTick := by
  intro hi lo s T hT hpos hp hd hq
  have hread : exec (.qRead hi lo) s = .next (armRead .commandPort (BitVec.ofNat 16 T) s) := by
    subst hT
    exact exec_qRead_of_wait hp hd hq (by omega)
  have htmr : (armRead .commandPort (BitVec.ofNat 16 T) s).rdTmr.toNat = T := by
    rw [armRead_rdTmr, hT, ← timeoutOf_eq_ofNat, timeoutOf_toNat]
  refine ⟨_, hread, fun k hk => ?before, ?last, fun k u hpends => ?between⟩
  case before => rw [ticks_of_lt rfl (htmr.symm ▸ hk), htmr]
  case last =>
    obtain ⟨k, rfl⟩ : ∃ k, T = k + 1 := ⟨T - 1, by omega⟩
    rw [ticks_of_eq rfl htmr, completeRead_of_commandPort rfl]
    rfl
  case between =>
    have hrem := hpends.remains rfl (htmr.symm ▸ hpos)
    have hleft : u.rdTmr.toNat + k = T := hrem.rdTmr.trans htmr
    have hchan : u.respChan = .commandPort := hrem.respChan
    refine ⟨htmr ▸ hrem.lt, hrem.rdPend, ?_, hchan, fun hk => ?_, fun i hpush hterm hlast => ?_⟩
    · rw [← hleft, Nat.add_sub_cancel, BitVec.ofNat_toNat, BitVec.setWidth_eq]
    · rw [hrem.exec_last_tick (htmr.symm ▸ hk), completeRead_of_commandPort hchan]
      rfl
    · exact hrem.goes_on hpush hterm fun htick => htmr.symm ▸ hlast htick

end Sys2Proof.Machine
end

section
/-! The timeout of a PEND (spec/43_queue_transport.md R190, spec/44_host_client.md R227). -/

namespace Sys2Proof.Machine

section
variable {s : State} {ctx : Ctx} {rw : Bool} {d : Descriptor} {T : Word}

/-! ### The host's turns -/

theorem clientTurn_of_ready {p : Proc} (hproc : s.client.proc = some p) (hready : clientReady s = true) :
    clientTurn s = issueStage p s := by
  simp [clientTurn, hproc, hready]

/-- The caller's procedure begins: it has the lock (R224). -/
def begun (p : Proc) (s : State) : State :=
  { s with client := { s.client with lock := true, holder := s.client.caller, proc := some p } }

theorem beginCall_of_mayCall {i : Instr} (h : mayCall s.client.caller i s) (p : Proc) :
    beginCall i p s = clientTurn (begun p s) := if_pos h

/-- The Q.READ of a PEND with a timeout pends on an empty queue (R186, R227). -/
theorem clientTurn_of_read_pends (hproc : s.client.proc = some ⟨ctx, .pendRead rw d T⟩) (hport : s.port = [])
    (hp : s.rdPend = false) (hd : s.dead = false) (hq : s.q = []) (hT : T ≠ 0) :
    clientTurn s = setProc ctx (.pendWait rw d) (armRead .client T s) := by
  have hready : clientReady s = true := by simp [clientReady, hproc, hport, hp]
  rw [clientTurn_of_ready hproc hready]
  simp only [issueStage, issueRead, qRead_of_wait hd hq hT]

/-- The state in which a PEND with the timeout `T` waits for its item. -/
def pendWaits (rw : Bool) (d : Descriptor) (T : Word) (s : State) : State :=
  setProc (.top 0x42) (.pendWait rw d) (armRead .client T (begun ⟨.top 0x42, .pendRead rw d T⟩ s))

theorem exec_pend_of_wait {timeout : Option Word} (hT : T = timeout.getD s.cfg.tDefault) (hproc : s.client.proc = none)
    (hlock : s.client.lock = true → s.client.pair = true ∧ s.client.holder = s.client.caller) (hport : s.port = [])
    (hp : s.rdPend = false) (hd : s.dead = false) (hq : s.q = []) (hne : T ≠ 0) :
    exec (.pend rw d timeout) s = .next (pendWaits rw d T s) := by
  have hmay : mayCall s.client.caller (.pend rw d timeout) s := by
    refine ⟨hproc, fun hl => ?_⟩
    obtain ⟨hpair, hholder⟩ := hlock hl
    exact ⟨hpair, hholder, rfl⟩
  have hbegin : exec (.pend rw d timeout) s =
      .next (beginCall (.pend rw d timeout) ⟨.top 0x42, .pendRead rw d T⟩ s) := by
    rw [hT]
    rfl
  rw [hbegin, beginCall_of_mayCall hmay]
  exact congrArg _ (clientTurn_of_read_pends rfl hport hp hd hq hne)

/-- A PEND whose Q.READ is answered NONE returns TIMEOUT and frees the lock (R224, R227). -/
theorem clientTurn_of_none (hproc : s.client.proc = some ⟨.top 0x42, .pendWait rw d⟩)
    (hinbox : s.client.inbox = some (raise .none)) : clientTurn s =
      { s with client := { s.client with
          lock := false, pair := false, proc := none, inbox := none,
          results := s.client.results ++ [.status 0x42 .timeout none] } } := by
  have hready : clientReady s = true := by simp [clientReady, hproc, hinbox]
  rw [clientTurn_of_ready hproc hready]
  simp only [issueStage, hinbox]
  rfl

/-- The tick that ends the read of a waiting PEND, and the host's turn after it. -/
theorem clientTurn_of_timedOut (hproc : s.client.proc = some ⟨.top 0x42, .pendWait rw d⟩)
    (hchan : s.respChan = .client) : clientTurn (completeRead (raise .none) s) =
      { s with rdPend := false, rdTmr := 0, respChan := .idle, resp := s.resp ++ [⟨0x20, ⟨.none, []⟩⟩],
               client := { s.client with
                 lock := false, pair := false, proc := none, inbox := none,
                 results := s.client.results ++ [.status 0x42 .timeout none] } } := by
  have hproc' : (completeRead (raise .none) s).client.proc = some ⟨.top 0x42, .pendWait rw d⟩ := by
    rw [completeRead_client_proc, hproc]
  have hinbox : (completeRead (raise .none) s).client.inbox = some (raise .none) := by
    rw [completeRead_of_client hchan]
  rw [clientTurn_of_none hproc' hinbox, completeRead_of_client hchan]
  rfl

end

/-- Settles O55: the PEND waits with its timeout in the timer, which the ticks count down, and the host's turn after
the last one returns TIMEOUT. -/
theorem pendTimesOut : Obligations.PendTimesOut := by
  intro rw d timeout T s hT hproc hlock hport hp hd hq hne
  have hpos : 1 ≤ T.toNat := by bv_omega
  obtain ⟨n, hn⟩ : ∃ n, T.toNat = n + 1 := ⟨T.toNat - 1, by omega⟩
  refine ⟨pendWaits rw d T s, completeRead (raise .none) (pendWaits rw d T s),
    exec_pend_of_wait hT hproc hlock hport hp hd hq hne, ?ticks, ?returns, fun k v hinbox hpends => ?between⟩
  case ticks =>
    rw [hn]
    exact ticks_of_eq rfl hn
  case returns =>
    refine (clientTurn_of_timedOut (s := pendWaits rw d T s) rfl rfl).trans ?_
    rw [← hp]
    rfl
  case between =>
    have hrem := hpends.remains rfl hpos
    obtain ⟨hproc', -⟩ := hrem.host ⟨⟨_, rfl, rfl⟩, hinbox⟩
    refine ⟨hrem.lt, fun hk => ⟨_, hrem.exec_last_tick hk, ?_⟩, fun i hpush hterm hlast => ?_⟩
    · exact clientTurn_of_timedOut hproc' hrem.respChan
    · exact hrem.goes_on hpush hterm hlast

end Sys2Proof.Machine
end

section
/-! SUPPORT. The turns of the host's procedure in progress: one equation for each answer that the command of a stage can
get, in any procedure (spec/44_host_client.md R223, R225, R227). -/

namespace Sys2Proof.Machine

-- one more elaboration thread here can exceed the memory limit of the whole text
set_option Elab.async false

section
variable {s : State} {ctx : Ctx} {rw : Bool} {d : Descriptor}

/-- A procedure issues the command of its stage when no byte waits on the command port, and its Q.READ when also no
read is pending (R186, R308). -/
theorem clientTurn_of_free_port {stage : Stage} (hproc : s.client.proc = some ⟨ctx, stage⟩) (hport : s.port = [])
    (hread : ∀ rw d T, stage = .pendRead rw d T → s.rdPend = false := by nofun)
    (hwait : stage.waits = false := by rfl) : clientTurn s = issueStage ⟨ctx, stage⟩ s := by
  refine clientTurn_of_ready hproc ?_
  cases stage with
  | pendWait => cases hwait
  | pendRead rw d T => simp [clientReady, hproc, hport, hread rw d T rfl]
  | connectFlush | sendQuery | sendPack | sendWrite | pendUnpack => simp [clientReady, hproc, hport]

/-! ### CONNECT_TO's FLUSH -/

/-- A live block once a CONNECT_TO's FLUSH has repointed it, with the template (R191, R192, R223). -/
def repointed (target : Byte) (aux : Nat) (s : State) : State :=
  { s with
    q := [], rxn := 0, dstate := .awaitFrom, expFrom := target, expTo := s.cfg.hostId, expSet := true
    resp := s.resp ++ [⟨0x21, ⟨.ok, []⟩⟩]
    client := { s.client with targetId := target, auxId := aux } }

section
variable {target : Byte} {aux : Nat}

theorem issueStage_connect (ctx : Ctx) (target : Byte) (aux : Nat) (s : State) :
    issueStage ⟨ctx, .connectFlush target aux⟩ s =
      clientReturn ctx (flush 0x03 target s.cfg.hostId (retarget target aux s)).2.status none
        (reply 0x21 (flush 0x03 target s.cfg.hostId (retarget target aux s)).2
          (flush 0x03 target s.cfg.hostId (retarget target aux s)).1) := rfl

variable (hproc : s.client.proc = some ⟨ctx, .connectFlush target aux⟩) (hport : s.port = [])
include hproc hport

theorem clientTurn_connect_of_live (hd : s.dead = false) :
    clientTurn s = clientReturn ctx .ok none (repointed target aux s) := by
  rw [clientTurn_of_free_port hproc hport, issueStage_connect,
    flush_of_live (s := retarget target aux s) (by decide) hd]
  rfl

theorem clientTurn_connect_of_dead (hd : s.dead = true) :
    clientTurn s = clientReturn ctx .dead none (reply 0x21 (raise .dead) (retarget target aux s)) := by
  rw [clientTurn_of_free_port hproc hport, issueStage_connect,
    flush_of_dead (s := retarget target aux s) (by decide) hd]
  rfl

end

/-! ### SEND's IS.ERR -/

section
variable {payload : List Byte} (hproc : s.client.proc = some ⟨ctx, .sendQuery rw d payload⟩) (hport : s.port = [])
include hproc hport

theorem clientTurn_query_of_dead (hd : s.dead = true) :
    clientTurn s = clientReturn ctx .dead none (reply 0x24 (respond .ok [0x01]) s) := by
  rw [clientTurn_of_free_port hproc hport]
  simp [issueStage, issueQuery, isErrReply, hd]

theorem clientTurn_query_of_misfit (hd : s.dead = false) (hlen : requestLength d rw payload = none) :
    clientTurn s = clientReturn ctx .len none (reply 0x24 (respond .ok [0x00]) s) := by
  rw [clientTurn_of_free_port hproc hport]
  simp [issueStage, issueQuery, isErrReply, hd, hlen]

theorem clientTurn_query_of_fit {len : Nat} (hd : s.dead = false) (hlen : requestLength d rw payload = some len) :
    clientTurn s = setProc ctx (.sendPack rw d payload) (reply 0x24 (respond .ok [0x00]) s) := by
  rw [clientTurn_of_free_port hproc hport]
  simp [issueStage, issueQuery, isErrReply, hd, hlen, requestLength_eq_some hlen]

end

/-! ### SEND's PACK -/

section
variable {data : List Byte} {code : Byte} {st : Status} {frame : List Byte}

theorem clientTurn_pack_of_ok (hproc : s.client.proc = some ⟨ctx, .sendPack rw d data⟩) (hport : s.port = [])
    (hpack : packCommand rw d data s = (code, respond .ok (countByte frame :: frame))) :
    clientTurn s = setProc ctx (.sendWrite frame) (reply code (respond .ok (countByte frame :: frame)) s) := by
  rw [clientTurn_of_free_port hproc hport]
  simp [issueStage, issuePack, hpack, respond]

theorem clientTurn_pack_of_error (hproc : s.client.proc = some ⟨ctx, .sendPack rw d data⟩) (hport : s.port = [])
    (hpack : packCommand rw d data s = (code, raise st)) (hst : st ≠ .ok) :
    clientTurn s = clientReturn ctx st none (reply code (raise st) s) := by
  rw [clientTurn_of_free_port hproc hport]
  simp [issueStage, issuePack, hpack, raise, hst]

theorem flByte_lt (x y : Bool) : (flByte x y).toNat < 4 := by
  revert x y
  decide

theorem byte7_lt (v : Field7) : (byte7 v).toNat < 128 := by
  rw [byte7_toNat]
  exact v.isLt

theorem packCommand_rs (hf : s.client.form = .rs) (hlen : data.length ≤ 125) : packCommand rw d data s = (0x10,
    respond .ok (countByte (packRs s.cfg ⟨s.cfg.hostId, s.client.targetId, s.client.tstate, rw, d.cmd, data⟩) ::
      packRs s.cfg ⟨s.cfg.hostId, s.client.targetId, s.client.tstate, rw, d.cmd, data⟩)) := by
  simp only [packCommand, hf, packRsReply_legal s.cfg (flByte_lt _ _) (byte7_lt _), if_neg (Nat.not_lt.2 hlen),
    flBit1_flByte, flBit0_flByte, low7_byte7]

theorem packCommand_rs_of_long (hf : s.client.form = .rs) (hlen : 125 < data.length) :
    packCommand rw d data s = (0x10, raise .len) := by
  simp only [packCommand, hf, packRsReply_legal s.cfg (flByte_lt _ _) (byte7_lt _), if_pos hlen]

theorem packCommand_can (hf : s.client.form = .can) (hid : s.client.targetId.toNat < 128) (hlen : data.length ≤ 7) :
    packCommand rw d data s = (0x11, respond .ok
      (countByte (packCan s.cfg ⟨low7 s.client.targetId, s.client.tstate, rw, d.cmd, data⟩) ::
        packCan s.cfg ⟨low7 s.client.targetId, s.client.tstate, rw, d.cmd, data⟩)) := by
  simp only [packCommand, hf, packCanReply_legal s.cfg hid (flByte_lt _ _) (byte7_lt _), if_neg (Nat.not_lt.2 hlen),
    flBit1_flByte, flBit0_flByte, low7_byte7]

theorem packCommand_can_of_long (hf : s.client.form = .can) (hid : s.client.targetId.toNat < 128)
    (hlen : 7 < data.length) : packCommand rw d data s = (0x11, raise .len) := by
  simp only [packCommand, hf, packCanReply_legal s.cfg hid (flByte_lt _ _) (byte7_lt _), if_pos hlen]

theorem packCommand_can_of_illegal (hf : s.client.form = .can) (hid : 128 ≤ s.client.targetId.toNat) :
    packCommand rw d data s = (0x11, raise .ill) := by
  simp only [packCommand, hf, packCanReply_ill s.cfg (.inl hid)]

end

/-! ### SEND's TX.WRITE -/

section
variable {frame : List Byte} (hproc : s.client.proc = some ⟨ctx, .sendWrite frame⟩) (hport : s.port = [])
include hproc hport

theorem clientTurn_write_of_live (hd : s.dead = false) :
    clientTurn s = clientReturn ctx .ok none (reply 0x22 (respond .ok []) (emit frame s)) := by
  rw [clientTurn_of_free_port hproc hport]
  simp only [issueStage, issueWrite, txWrite_of_live hd, respond]

theorem clientTurn_write_of_dead (hd : s.dead = true) :
    clientTurn s = clientReturn ctx .dead none (reply 0x22 (raise .dead) s) := by
  rw [clientTurn_of_free_port hproc hport]
  simp only [issueStage, issueWrite, txWrite_of_dead hd, raise]

end

/-! ### PEND's Q.READ -/

section
variable {T : Word} (hproc : s.client.proc = some ⟨ctx, .pendRead rw d T⟩) (hport : s.port = [])
  (hp : s.rdPend = false)
include hproc hport hp

theorem clientTurn_read_of_dead (hd : s.dead = true) :
    clientTurn s = clientReturn ctx .dead none (reply 0x20 (raise .dead) s) := by
  rw [clientTurn_of_free_port hproc hport fun _ _ _ _ => hp]
  simp only [issueStage, issueRead, qRead_of_dead hd]
  rfl

theorem clientTurn_read_of_no_wait (hd : s.dead = false) (hq : s.q = []) (hT : T = 0) :
    clientTurn s = clientReturn ctx .timeout none (reply 0x20 (raise .none) s) := by
  rw [clientTurn_of_free_port hproc hport fun _ _ _ _ => hp]
  simp only [issueStage, issueRead, qRead_of_no_wait hd hq hT]
  rfl

theorem clientTurn_read_of_item {item : List Byte} {rest : List (List Byte)} (hd : s.dead = false)
    (hq : s.q = item :: rest) : clientTurn s =
      setProc ctx (.pendUnpack rw d item) (reply 0x20 (respond .ok (countByte item :: item)) { s with q := rest }) := by
  rw [clientTurn_of_free_port hproc hport fun _ _ _ _ => hp]
  simp only [issueStage, issueRead, qRead_of_item hd hq]
  rfl

end

/-! ### PEND's wait -/

/-- The host has taken the response that had come for it. -/
def emptyInbox (s : State) : State := { s with client := { s.client with inbox := none } }

section
variable (hproc : s.client.proc = some ⟨ctx, .pendWait rw d⟩)
include hproc

theorem clientTurn_wait {r : Reply} (hinbox : s.client.inbox = some r) :
    clientTurn s = afterRead ctx rw d r (emptyInbox s) := by
  rw [clientTurn_of_ready hproc (by simp [clientReady, hproc, hinbox])]
  simp only [issueStage, hinbox]
  rfl

theorem clientTurn_wait_of_item {n : Byte} {item : List Byte} (hinbox : s.client.inbox = some ⟨.ok, n :: item⟩) :
    clientTurn s = setProc ctx (.pendUnpack rw d item) (emptyInbox s) := clientTurn_wait hproc hinbox

theorem clientTurn_wait_of_none (hinbox : s.client.inbox = some (raise .none)) :
    clientTurn s = clientReturn ctx .timeout none (emptyInbox s) := clientTurn_wait hproc hinbox

theorem clientTurn_wait_of_dead (hinbox : s.client.inbox = some (raise .dead)) :
    clientTurn s = clientReturn ctx .dead none (emptyInbox s) := clientTurn_wait hproc hinbox

end

/-! ### PEND's UNPACK -/

theorem clientTurn_unpack {item : List Byte} {st : Status} {frame : Option Frame}
    (hproc : s.client.proc = some ⟨ctx, .pendUnpack rw d item⟩) (hport : s.port = [])
    (h : ItemResult s rw d item st frame) :
    clientTurn s = clientReturn ctx st frame { s with resp := s.resp ++ [itemResponse s item] } := by
  rw [clientTurn_of_free_port hproc hport]
  simp only [issueStage, issueUnpack, itemResponse, reply]
  unfold ItemResult at h
  cases hf : s.client.form with
  | rs =>
    simp only [hf] at h
    obtain ⟨herr, rfl⟩ | ⟨f, hok, rfl, rfl⟩ := h
    · simp only [herr]
    · simp only [hok]
      rfl
  | can =>
    simp only [hf] at h
    obtain ⟨hid, rfl, rfl⟩ | ⟨hid, herr, rfl⟩ | ⟨hid, f, hok, rfl, rfl⟩ := h
    · have hcodec : unpackCanByte s.cfg s.client.targetId item = .error .ill :=
        if_pos (by rw [hiBit_eq_toNat, decide_eq_true hid])
      simp only [hcodec]
    all_goals
      have hcodec : unpackCanByte s.cfg s.client.targetId item = _ :=
        if_neg (by rw [hiBit_eq_toNat, decide_eq_true_iff, Nat.not_le]; exact hid)
      rw [low7_eq_ofNat] at hcodec
    · simp only [hcodec, herr]
    · simp only [hcodec, hok]
      rfl

/-- PEND makes something of every item (R227). -/
theorem exists_itemResult (s : State) (rw : Bool) (d : Descriptor) (item : List Byte) :
    ∃ st frame, ItemResult s rw d item st frame := by
  unfold ItemResult
  cases s.client.form with
  | rs =>
    cases h : unpackRs s.cfg item s.client.targetId s.cfg.hostId with
    | error st => exact ⟨st, none, .inl ⟨rfl, rfl⟩⟩
    | ok f => exact ⟨_, _, .inr ⟨f, rfl, rfl, rfl⟩⟩
  | can =>
    obtain hid | hid := Nat.lt_or_ge s.client.targetId.toNat 128
    · cases h : unpackCan s.cfg item (BitVec.ofNat 7 s.client.targetId.toNat) with
      | error st => exact ⟨st, none, .inr (.inl ⟨hid, rfl, rfl⟩)⟩
      | ok f => exact ⟨_, _, .inr (.inr ⟨hid, f, rfl, rfl, rfl⟩)⟩
    · exact ⟨.ill, none, .inl ⟨hid, rfl, rfl⟩⟩

end

end Sys2Proof.Machine
end

section
/-! The lock: which calls begin and which wait, and whose turn it is (spec/44_host_client.md R224, R236). -/

namespace Sys2Proof.Machine

-- one more elaboration thread here can exceed the memory limit of the whole text
set_option Elab.async false

section
variable {s t u : State} {i : Instr} {p : Proc}

/-! ### Who may begin -/

theorem isPend_iff (i : Instr) : isPend i = true ↔ ∃ rw d timeout, i = .pend rw d timeout := by
  cases i <;> simp [isPend]

theorem mayCall_iff (c : Nat) (i : Instr) (s : State) : mayCall c i s ↔ s.client.proc = none ∧
    (s.client.lock = true → s.client.pair = true ∧ s.client.holder = c ∧ ∃ rw d timeout, i = .pend rw d timeout) := by
  rw [mayCall, isPend_iff]

theorem not_mayCall_iff (c : Nat) (i : Instr) (s : State) : ¬ mayCall c i s ↔ s.client.proc ≠ none ∨
    (s.client.lock = true ∧
      (s.client.pair = false ∨ s.client.holder ≠ c ∨ ∀ rw d timeout, i ≠ .pend rw d timeout)) := by
  rw [mayCall_iff]
  simp only [not_and_or, Classical.not_imp, Bool.not_eq_true, not_exists, ne_eq]

/-- The five calls are the beginnings of a procedure; a GET_RANGE that begins may first draw a free value (log 15). -/
theorem exec_call (h : i.port = .call) (s : State) : ∃ p t, exec i s = .next (beginCall i p t) ∧
    t.client = s.client ∧ (¬ mayCall s.client.caller i s → t = s) := by
  cases i with
  | connectTo | send | pend | connectDevice => exact ⟨_, s, rfl, rfl, fun _ => rfl⟩
  | getRange d a b => exact ⟨_, drawSlots d a b s, rfl, drawSlots_client .., fun hno => if_neg fun h => hno h.2⟩
  | crcClr | crcUpd | crcGet | crcBuf | packRs | packCan | unpackRs | unpackCan | qRead | flush | txWrite | close
  | isErr | rxChunk | decFeed | ioErr | tick => cases h

/-- A call that may not begin waits, and changes nothing else. -/
theorem exec_call_of_not_mayCall (h : i.port = .call) (hno : ¬ mayCall s.client.caller i s) :
    exec i s = .next { s with client := { s.client with waiting := s.client.waiting ++ [(s.client.caller, i)] } } := by
  obtain ⟨p, t, hexec, -, ht⟩ := exec_call h s
  rw [hexec, ht hno]
  exact congrArg _ (if_neg hno)

/-! ### What a call and its procedure leave of the callers -/

/-- The holder of the lock, the caller and the waiting callers are in `t` those of `s`. -/
def SameCallers (s t : State) : Prop :=
  t.client.holder = s.client.holder ∧ t.client.caller = s.client.caller ∧ t.client.waiting = s.client.waiting

theorem HostCommand.sameCallers {stage : Stage} (h : HostCommand s stage u) : SameCallers s u := by
  cases h with
  | flush => simp [SameCallers, retarget]
  | write => simp [SameCallers]
  | dequeue | take | answer => exact ⟨rfl, rfl, rfl⟩

theorem ProcMoves.sameCallers {ctx : Ctx} (hm : ProcMoves ctx u t) : SameCallers u t := by
  cases hm <;> exact ⟨rfl, rfl, rfl⟩

theorem HostTurn.sameCallers (h : HostTurn p s t) : SameCallers s t := by
  cases h with
  | idle | pends => exact ⟨rfl, rfl, rfl⟩
  | answered u _ hcommand hmoves =>
    obtain ⟨hholder, hcaller, hwaiting⟩ := hcommand.sameCallers
    obtain ⟨hholder', hcaller', hwaiting'⟩ := hmoves.sameCallers
    exact ⟨hholder'.trans hholder, hcaller'.trans hcaller, hwaiting'.trans hwaiting⟩

theorem clientTurn_sameCallers (s : State) : SameCallers s (clientTurn s) := by
  obtain heq | ⟨p, -, hturn⟩ := clientTurn_cases s
  · rw [heq]
    exact ⟨rfl, rfl, rfl⟩
  · exact hturn.sameCallers

/-- A call that may begin takes the lock for its caller. -/
theorem exec_call_of_mayCall (h : i.port = .call) (hmay : mayCall s.client.caller i s) :
    ∃ t, exec i s = .next t ∧ t.client.holder = s.client.caller ∧ t.client.waiting = s.client.waiting := by
  obtain ⟨p, t, hexec, hclient, -⟩ := exec_call h s
  have hmay' : mayCall t.client.caller i t := by
    rw [mayCall, hclient]
    exact hmay
  obtain ⟨hholder, -, hwaiting⟩ := clientTurn_sameCallers (begun p t)
  refine ⟨clientTurn (begun p t), by rw [hexec, beginCall_of_mayCall hmay'], ?_, ?_⟩
  · rw [hholder, ← hclient]
    rfl
  · rw [hwaiting, ← hclient]
    rfl

/-! ### The turn of a waiting caller -/

theorem callerTurn_of_mayCall {k c : Nat} (hw : s.client.waiting[k]? = some (c, i)) (hmay : mayCall c i s)
    (hexec : exec i { s with client := { s.client with caller := c, waiting := s.client.waiting.eraseIdx k } } =
      .next t) : callerTurn k s = .next { t with client := { t.client with caller := s.client.caller } } := by
  simp only [callerTurn, hw, if_pos hmay, hexec]

theorem callerTurn_of_not_mayCall {k c : Nat} (hw : s.client.waiting[k]? = some (c, i)) (hno : ¬ mayCall c i s) :
    callerTurn k s = .next s := by
  simp only [callerTurn, hw, if_neg hno]

end

/-- Settles O49: the guard of `beginCall` and of `callerTurn` is the lock as the statement spells it out, and no turn
of a procedure touches the holder and the waiting callers. -/
theorem callWaitsForTheLock : Obligations.CallWaitsForTheLock := by
  refine ⟨fun i s hcall hbusy => ?waits, fun s ts k c i hs hw hcall hproc hlock => ?served,
    fun s ts k c i hs hw hbusy => ?goesOn⟩
  case waits => exact exec_call_of_not_mayCall hcall ((not_mayCall_iff ..).2 hbusy)
  case served =>
    have hmay : mayCall c i s := (mayCall_iff ..).2 ⟨hproc, hlock⟩
    obtain ⟨t, hexec, hholder, hwaiting⟩ := exec_call_of_mayCall
      (s := { s with sched := ts, client := { s.client with
        caller := c, waiting := s.client.waiting.eraseIdx k } }) hcall hmay
    refine ⟨t, hexec, hholder, hwaiting, ?_⟩
    rw [step_of_sched hs]
    exact callerTurn_of_mayCall (s := { s with sched := ts }) hw hmay hexec
  case goesOn =>
    rw [step_of_sched hs]
    exact callerTurn_of_not_mayCall (s := { s with sched := ts }) hw ((not_mayCall_iff ..).2 hbusy)

end Sys2Proof.Machine
end

section
/-! CONNECT_TO and SEND (spec/44_host_client.md R222, R223, R225). -/

namespace Sys2Proof.Machine

-- one more elaboration thread here can exceed the memory limit of the whole text
set_option Elab.async false

section
variable {s : State} {rw : Bool} {d : Descriptor} {payload : List Byte}

/-! ### The calls -/

theorem beginCall_of_free (hproc : s.client.proc = none) (hlock : s.client.lock = false) (i : Instr) (p : Proc) :
    beginCall i p s = clientTurn (begun p s) := beginCall_of_mayCall (mayCall_of_free hproc hlock ..) p

theorem exec_connectTo_of_free {target : Byte} {aux : Nat} (hproc : s.client.proc = none)
    (hlock : s.client.lock = false) : exec (.connectTo target aux) s =
      .next (clientTurn (begun ⟨.top 0x40, .connectFlush target aux⟩ s)) :=
  congrArg _ (beginCall_of_free hproc hlock ..)

theorem exec_send_of_free (hproc : s.client.proc = none) (hlock : s.client.lock = false) :
    exec (.send rw d payload) s = .next (clientTurn (begun ⟨.top 0x41, .sendQuery rw d payload⟩ s)) :=
  congrArg _ (beginCall_of_free hproc hlock ..)

/-! ### The commands of a SEND with no other step between them -/

theorem packCommand_begun (p : Proc) (s : State) :
    packCommand rw d payload (begun p s) = packCommand rw d payload s := rfl

theorem packCommand_reply (code : Byte) (r : Reply) (s : State) :
    packCommand rw d payload (reply code r s) = packCommand rw d payload s := rfl

theorem packCommand_setProc (ctx : Ctx) (stage : Stage) (s : State) :
    packCommand rw d payload (setProc ctx stage s) = packCommand rw d payload s := rfl

/-- What a SEND of `frame` leaves when nothing else runs between its three commands (R225). -/
def sent (code : Byte) (frame : List Byte) (s : State) : State :=
  { s with
    resp := s.resp ++ [⟨0x24, ⟨.ok, [0x00]⟩⟩, ⟨code, ⟨.ok, countByte frame :: frame⟩⟩, ⟨0x22, ⟨.ok, []⟩⟩]
    tx := s.tx ++ frame }

theorem clientTurns_send {ctx : Ctx} {len : Nat} {code : Byte} {frame : List Byte}
    (hproc : s.client.proc = some ⟨ctx, .sendQuery rw d payload⟩) (hport : s.port = []) (hd : s.dead = false)
    (hlen : requestLength d rw payload = some len)
    (hpack : packCommand rw d payload s = (code, respond .ok (countByte frame :: frame))) :
    clientTurns 2 (clientTurn s) = clientReturn ctx .ok none (setProc ctx (.sendWrite frame) (sent code frame s)) := by
  let t := setProc ctx (.sendPack rw d payload) (reply 0x24 (respond .ok [0x00]) s)
  let u := setProc ctx (.sendWrite frame) (reply code (respond .ok (countByte frame :: frame)) t)
  have hquery : clientTurn s = t := clientTurn_query_of_fit hproc hport hd hlen
  have hpacked : clientTurn t = u := by
    refine clientTurn_pack_of_ok rfl ?_ ?_
    · simp only [t, setProc_port, reply_port, hport]
    · rw [packCommand_setProc, packCommand_reply, hpack]
  have hwritten : clientTurn u = clientReturn ctx .ok none (reply 0x22 (respond .ok []) (emit frame u)) := by
    refine clientTurn_write_of_live rfl ?_ ?_
    · simp only [t, u, setProc_port, reply_port, hport]
    · simp only [t, u, setProc_dead, reply_dead, hd]
  have hsent : reply 0x22 (respond .ok []) (emit frame u) = setProc ctx (.sendWrite frame) (sent code frame s) := by
    simp [t, u, reply, emit, setProc, sent, respond]
  calc clientTurns 2 (clientTurn s)
      = clientTurn (clientTurn (clientTurn s)) := rfl
    _ = clientReturn ctx .ok none (reply 0x22 (respond .ok []) (emit frame u)) := by rw [hquery, hpacked, hwritten]
    _ = clientReturn ctx .ok none (setProc ctx (.sendWrite frame) (sent code frame s)) := by rw [hsent]

theorem clientTurns_send_of_unpackable {ctx : Ctx} {len : Nat} {code : Byte} {st : Status}
    (hproc : s.client.proc = some ⟨ctx, .sendQuery rw d payload⟩) (hport : s.port = []) (hd : s.dead = false)
    (hlen : requestLength d rw payload = some len) (hpack : packCommand rw d payload s = (code, raise st))
    (hst : st ≠ .ok) : clientTurns 1 (clientTurn s) = clientReturn ctx st none (setProc ctx (.sendPack rw d payload)
      { s with resp := s.resp ++ [⟨0x24, ⟨.ok, [0x00]⟩⟩, ⟨code, ⟨st, []⟩⟩] }) := by
  let t := setProc ctx (.sendPack rw d payload) (reply 0x24 (respond .ok [0x00]) s)
  have hquery : clientTurn s = t := clientTurn_query_of_fit hproc hport hd hlen
  have hfailed : clientTurn t = clientReturn ctx st none (reply code (raise st) t) := by
    refine clientTurn_pack_of_error rfl ?_ ?_ hst
    · simp only [t, setProc_port, reply_port, hport]
    · rw [packCommand_setProc, packCommand_reply, hpack]
  rw [hquery, clientTurns, clientTurns, hfailed]
  simp [t, reply, setProc, respond, raise]

/-- The turn that ends a SEND writes nothing but a response before the SEND returns, and a frame only when it returns
OK. -/
theorem SendEnds.clientTurn_eq {ctx : Ctx} {stage : Stage} {st : Status} (h : SendEnds s stage st)
    (hproc : s.client.proc = some ⟨ctx, stage⟩) : ∃ resp tx,
      clientTurn s = clientReturn ctx st none { s with resp := resp, tx := tx } ∧ (st ≠ .ok → tx = s.tx) := by
  obtain ⟨hport, h⟩ := h
  cases stage with
  | sendQuery rw d payload =>
    obtain ⟨hd, rfl⟩ | ⟨hd, hlen, rfl⟩ := h
    · exact ⟨_, s.tx, clientTurn_query_of_dead hproc hport hd, fun _ => rfl⟩
    · exact ⟨_, s.tx, clientTurn_query_of_misfit hproc hport hd hlen, fun _ => rfl⟩
  | sendPack rw d data =>
    obtain ⟨hf, hlong, rfl⟩ | ⟨hf, hid, hlong, rfl⟩ | ⟨hf, hid, rfl⟩ := h
    · exact ⟨_, s.tx, clientTurn_pack_of_error hproc hport (packCommand_rs_of_long hf hlong) nofun, fun _ => rfl⟩
    · exact ⟨_, s.tx, clientTurn_pack_of_error hproc hport (packCommand_can_of_long hf hid hlong) nofun, fun _ => rfl⟩
    · exact ⟨_, s.tx, clientTurn_pack_of_error hproc hport (packCommand_can_of_illegal hf hid) nofun, fun _ => rfl⟩
  | sendWrite frame =>
    obtain ⟨hd, rfl⟩ | ⟨hd, rfl⟩ := h
    · exact ⟨_, s.tx, clientTurn_write_of_dead hproc hport hd, fun _ => rfl⟩
    · exact ⟨_, _, clientTurn_write_of_live hproc hport hd, fun hne => absurd rfl hne⟩
  | connectFlush | pendRead | pendWait | pendUnpack => cases h

/-- A SEND that fails frees the lock (log 12). -/
theorem clientReturn_send_failed {st : Status} (hst : st ≠ .ok) (frame : Option Frame) (s : State) :
    clientReturn (.top 0x41) st frame s = { s with client := { s.client with
      lock := false, pair := false, proc := none, results := s.client.results ++ [.status 0x41 st frame] } } := by
  simp only [clientReturn, finishCall, opensPair_send_failed hst]

end

/-- Settles O50: the one command of CONNECT_TO on a live and on a dead block. -/
theorem connectToRepointsAndFlushes : Obligations.ConnectToRepointsAndFlushes := by
  intro target aux s hproc hlock hport
  rw [exec_connectTo_of_free hproc hlock]
  refine ⟨fun hd => ?live, fun hd => ?dead⟩
  case live =>
    rw [clientTurn_connect_of_live (s := begun _ s) rfl hport hd]
    rfl
  case dead =>
    rw [clientTurn_connect_of_dead (s := begun _ s) rfl hport hd]
    simp only [clientReturn, finishCall, opensPair_connectTo, reply, retarget, begun, raise]

/-- Settles O51: the call issues IS.ERR, and the two turns after it PACK and TX.WRITE. -/
theorem sendWritesOneFrame : Obligations.SendWritesOneFrame := by
  intro rw d payload frame code len s hproc hlock hport hd hlen hform
  obtain rfl := requestLength_eq_some hlen
  rw [List.take_length] at hform
  have hpack : packCommand rw d payload s = (code, respond .ok (countByte frame :: frame)) := by
    obtain ⟨hf, hfit, rfl, rfl⟩ | ⟨hf, hfit, rfl, hid, rfl⟩ := hform
    · exact packCommand_rs hf hfit
    · rw [← low7_eq_ofNat]
      exact packCommand_can hf hid hfit
  refine ⟨_, exec_send_of_free hproc hlock, ?_⟩
  rw [clientTurns_send (s := begun _ s) rfl hport hd hlen (by rw [packCommand_begun, hpack])]
  simp only [clientReturn, finishCall, opensPair_send_ok, sent, setProc, begun, countByte]

/-- Settles O52: the failures of IS.ERR, of the sizing and of PACK after a call, and that of TX.WRITE. -/
theorem sendFailsSoft : Obligations.SendFailsSoft := by
  refine ⟨fun rw d payload s returned hproc hlock hport hret => ?_, fun frame s hproc hport hd => ?write⟩
  case write => exact clientTurn_write_of_dead hproc hport hd
  rw [exec_send_of_free hproc hlock]
  simp only [hret]
  refine ⟨fun hd => ?dead, fun n hd hfixed hne => ?misfit, fun len code st hd hlen hform => ?pack⟩
  case dead =>
    rw [clientTurn_query_of_dead (s := begun _ s) rfl hport hd]
    rfl
  case misfit =>
    have hnone : requestLength d rw payload = none := by simp only [requestLength, hfixed, if_neg hne]
    rw [clientTurn_query_of_misfit (s := begun _ s) rfl hport hd hnone]
    rfl
  case pack =>
    obtain rfl := requestLength_eq_some hlen
    obtain ⟨hpack, hst⟩ : packCommand rw d payload s = (code, raise st) ∧ st ≠ .ok := by
      obtain ⟨hf, hlong, rfl, rfl⟩ | ⟨hf, hid, hlong, rfl, rfl⟩ | ⟨hf, hid, rfl, rfl⟩ := hform
      · exact ⟨packCommand_rs_of_long hf hlong, by decide⟩
      · exact ⟨packCommand_can_of_long hf hid hlong, by decide⟩
      · exact ⟨packCommand_can_of_illegal hf hid, by decide⟩
    refine ⟨_, rfl, ?_⟩
    rw [clientTurns_send_of_unpackable (s := begun _ s) rfl hport hd hlen (by rw [packCommand_begun, hpack]) hst,
      clientReturn_send_failed hst]
    rfl

end Sys2Proof.Machine
end

section
/-! PEND (spec/44_host_client.md R227). -/

namespace Sys2Proof.Machine

-- one more elaboration thread here can exceed the memory limit of the whole text
set_option Elab.async false

section
variable {s t u : State} {ctx : Ctx} {rw : Bool} {d : Descriptor} {item : List Byte} {st : Status}
  {frame : Option Frame} {T : Word}

/-! ### What an UNPACK reads -/

/-- The parameters and the template, which an UNPACK and the tests after it read, are in `t` those of `s`. -/
structure SameTemplate (s t : State) : Prop where
  cfg : t.cfg = s.cfg
  form : t.client.form = s.client.form
  targetId : t.client.targetId = s.client.targetId
  tstate : t.client.tstate = s.client.tstate

theorem SameTemplate.itemResult (h : SameTemplate s t) :
    ItemResult t rw d item st frame ↔ ItemResult s rw d item st frame := by
  rw [ItemResult, ItemResult, h.cfg, h.form, h.targetId, h.tstate]

theorem SameTemplate.itemResponse (h : SameTemplate s t) (item : List Byte) :
    itemResponse t item = itemResponse s item := by
  rw [Machine.itemResponse, Machine.itemResponse, h.cfg, h.form, h.targetId]

theorem sameTemplate_begun (p : Proc) (s : State) : SameTemplate s (begun p s) := ⟨rfl, rfl, rfl, rfl⟩

/-! ### An item that is there, and one that comes -/

/-- What the Q.READ and the UNPACK of a PEND leave that finds an item in the queue (R227). -/
def dequeued (item : List Byte) (rest : List (List Byte)) (s : State) : State :=
  { s with
    q := rest
    resp := s.resp ++ [⟨0x20, ⟨.ok, countByte item :: item⟩⟩, itemResponse s item] }

theorem clientTurns_read_unpack {rest : List (List Byte)} (hproc : s.client.proc = some ⟨ctx, .pendRead rw d T⟩)
    (hport : s.port = []) (hp : s.rdPend = false) (hd : s.dead = false) (hq : s.q = item :: rest)
    (h : ItemResult s rw d item st frame) : clientTurns 2 s =
      clientReturn ctx st frame (setProc ctx (.pendUnpack rw d item) (dequeued item rest s)) := by
  let t := setProc ctx (.pendUnpack rw d item) (reply 0x20 (respond .ok (countByte item :: item)) { s with q := rest })
  have hread : clientTurn s = t := clientTurn_read_of_item hproc hport hp hd hq
  have hsame : SameTemplate s t := ⟨rfl, rfl, rfl, rfl⟩
  have hunpacked : clientTurn t = clientReturn ctx st frame { t with resp := t.resp ++ [itemResponse t item] } := by
    refine clientTurn_unpack rfl ?_ (hsame.itemResult.2 h)
    simp only [t, setProc_port, reply_port, hport]
  rw [clientTurns, clientTurns, clientTurns, hread, hunpacked, hsame.itemResponse]
  simp [t, reply, setProc, respond, dequeued]

/-- What the push of an item and the UNPACK of the PEND leave that waits for it (R181, R227). -/
def delivered (item : List Byte) (s : State) : State :=
  { s with
    rdPend := false, rdTmr := 0, respChan := .idle
    resp := s.resp ++ [⟨0x20, ⟨.ok, countByte item :: item⟩⟩, itemResponse s item]
    client := { s.client with inbox := none } }

theorem clientTurns_push_unpack (hproc : s.client.proc = some ⟨ctx, .pendWait rw d⟩) (hport : s.port = [])
    (hp : s.rdPend = true) (hchan : s.respChan = .client) (h : ItemResult s rw d item st frame) :
    clientTurns 2 (qPush item s) =
      clientReturn ctx st frame (setProc ctx (.pendUnpack rw d item) (delivered item s)) := by
  let t := setProc ctx (.pendUnpack rw d item) (emptyInbox (qPush item s))
  have htaken : clientTurn (qPush item s) = t := by
    refine clientTurn_wait_of_item (by rw [qPush_client_proc, hproc]) (n := countByte item) ?_
    rw [qPush_of_pending hp, completeRead_of_client hchan]
    rfl
  have hsame : SameTemplate s t := by
    constructor <;> simp [t, emptyInbox]
  have hunpacked : clientTurn t = clientReturn ctx st frame { t with resp := t.resp ++ [itemResponse t item] } := by
    refine clientTurn_unpack rfl ?_ (hsame.itemResult.2 h)
    simp [t, emptyInbox, hport]
  rw [clientTurns, clientTurns, clientTurns, htaken, hunpacked, hsame.itemResponse]
  simp [t, emptyInbox, qPush_of_pending hp, completeRead_of_client hchan, setProc, respond, delivered]

/-! ### The turn that ends a PEND -/

/-- Whatever has run before, the turn that ends a PEND writes nothing but a response and the inbox before the PEND
returns. -/
theorem PendEnds.clientTurn_eq {stage : Stage} (h : PendEnds s stage st frame)
    (hproc : s.client.proc = some ⟨ctx, stage⟩) : ∃ resp inbox, clientTurn s =
      clientReturn ctx st frame { s with resp := resp, client := { s.client with inbox := inbox } } := by
  cases stage with
  | pendRead rw d T =>
    obtain ⟨hport, hp, rfl, ⟨hd, rfl⟩ | ⟨hd, hq, hT, rfl⟩⟩ := h
    · exact ⟨_, _, clientTurn_read_of_dead hproc hport hp hd⟩
    · exact ⟨_, _, clientTurn_read_of_no_wait hproc hport hp hd hq hT⟩
  | pendWait rw d =>
    obtain ⟨rfl, ⟨hinbox, rfl⟩ | ⟨hinbox, rfl⟩⟩ := h
    · exact ⟨s.resp, none, clientTurn_wait_of_none hproc hinbox⟩
    · exact ⟨s.resp, none, clientTurn_wait_of_dead hproc hinbox⟩
  | pendUnpack rw d item =>
    obtain ⟨hport, hitem⟩ := h
    exact ⟨_, s.client.inbox, clientTurn_unpack hproc hport hitem⟩
  | connectFlush | sendQuery | sendPack | sendWrite => cases h

/-- PEND, called by the caller itself, ends the pair and frees the lock (R224). -/
theorem clientReturn_pend (st : Status) (frame : Option Frame) (s : State) :
    clientReturn (.top 0x42) st frame s = { s with client := { s.client with
      lock := false, pair := false, proc := none, results := s.client.results ++ [.status 0x42 st frame] } } := rfl

/-- The terminal entry ends the PEND that waits with DEAD, whatever is answered between it and the host's turn (R195,
R196, R227). -/
theorem clientTurn_enterTerminal (hproc : s.client.proc = some ⟨.top 0x42, .pendWait rw d⟩) (hp : s.rdPend = true)
    (hchan : s.respChan = .client) (rs : List Response) :
    clientTurn { enterTerminal s with resp := (enterTerminal s).resp ++ rs } =
      { s with
        dead := true, q := [], rxn := 0, dstate := .awaitFrom, rdPend := false, rdTmr := 0, respChan := .idle
        resp := s.resp ++ ⟨0x20, ⟨.dead, []⟩⟩ :: rs
        client := { s.client with
          lock := false, pair := false, proc := none, inbox := none
          results := s.client.results ++ [.status 0x42 .dead none] } } := by
  have hentered : enterTerminal s = _ :=
    (enterTerminal_of_pending hp).trans (completeRead_of_client (s := deadened s) hchan _)
  have hproc' : (enterTerminal s).client.proc = some ⟨.top 0x42, .pendWait rw d⟩ := by
    rw [enterTerminal_client_proc, hproc]
  have hinbox : (enterTerminal s).client.inbox = some (raise .dead) := by rw [hentered]
  rw [clientTurn_wait_of_dead (s := { enterTerminal s with resp := (enterTerminal s).resp ++ rs }) hproc' hinbox,
    clientReturn_pend, hentered]
  simp [emptyInbox, deadened, raise]

/-! ### The call -/

theorem mayCall_pend {timeout : Option Word} (hproc : s.client.proc = none)
    (hlock : s.client.lock = true → s.client.pair = true ∧ s.client.holder = s.client.caller) :
    mayCall s.client.caller (.pend rw d timeout) s :=
  (mayCall_iff ..).2 ⟨hproc, fun hl => ⟨(hlock hl).1, (hlock hl).2, rw, d, timeout, rfl⟩⟩

/-- A PEND with the timeout `T` that waits for its item, after `k` ticks (R189). -/
def pendWaitsAfter (k : Nat) (rw : Bool) (d : Descriptor) (T : Word) (s : State) : State :=
  { pendWaits rw d T s with rdTmr := BitVec.ofNat 16 (T.toNat - k) }

theorem ticks_pendWaits {k : Nat} (hk : k < T.toNat) :
    ticks k (pendWaits rw d T s) = .next (pendWaitsAfter k rw d T s) := ticks_of_lt rfl hk

theorem ne_zero_of_lt_toNat {k : Nat} (hk : k < T.toNat) : T ≠ 0 := by
  rintro rfl
  simp at hk

theorem exec_pend_of_mayCall {timeout : Option Word} (hmay : mayCall s.client.caller (.pend rw d timeout) s) :
    exec (.pend rw d timeout) s =
      .next (clientTurn (begun ⟨.top 0x42, .pendRead rw d (timeout.getD s.cfg.tDefault)⟩ s)) :=
  congrArg _ (beginCall_of_mayCall hmay _)

end

/-- Settles O53: an item that is there is read and unpacked in two turns, one that comes is taken from the inbox and
unpacked in two turns, and every turn that ends a PEND returns to its caller. -/
theorem pendChecksOneItem : Obligations.PendChecksOneItem := by
  refine ⟨?there, ?comes, ?ends⟩
  case there =>
    intro rw d timeout item rest s st frame hproc hlock hport hd hp hq hitem
    refine ⟨_, exec_pend_of_mayCall (mayCall_pend hproc hlock), ?_⟩
    refine (clientTurns_read_unpack (s := begun _ s) rfl hport hp hd hq
      ((sameTemplate_begun ..).itemResult.2 hitem)).trans ?_
    rw [clientReturn_pend]
    simp only [setProc, dequeued, (sameTemplate_begun _ s).itemResponse]
    simp only [begun, countByte]
  case comes =>
    intro rw d timeout T item k s st frame hT hproc hlock hport hd hp hq hk hitem
    have hsame : SameTemplate s (pendWaitsAfter k rw d T s) := ⟨rfl, rfl, rfl, rfl⟩
    refine ⟨_, _, exec_pend_of_wait hT hproc hlock hport hp hd hq (ne_zero_of_lt_toNat hk), ticks_pendWaits hk,
      fun hatt hne hlen => exec_rxChunk_of_raw hd hne hatt hlen, ?_⟩
    rw [clientTurns_push_unpack (s := pendWaitsAfter k rw d T s) rfl hport rfl rfl (hsame.itemResult.2 hitem),
      clientReturn_pend]
    simp only [setProc, delivered, hsame.itemResponse]
    simp only [pendWaitsAfter, pendWaits, armRead, setProc, begun, countByte, hp]
  case ends =>
    intro s stage st frame hproc hends
    obtain ⟨resp, inbox, heq⟩ := hends.clientTurn_eq hproc
    rw [heq]
    exact ⟨rfl, rfl, rfl, rfl⟩

/-- Settles O54: the answers of the Q.READ on an empty queue, and the terminal entry that answers a read that pends. -/
theorem pendWithoutAnItem : Obligations.PendWithoutAnItem := by
  refine ⟨?call, ?terminal⟩
  case call =>
    intro rw d timeout s hproc hlock hport hp
    refine ⟨fun hd => ?dead, fun hd hq hT => ?noWait, fun hd hq hT => ?waits⟩
    case dead =>
      rw [exec_pend_of_mayCall (mayCall_pend hproc hlock),
        clientTurn_read_of_dead (s := begun _ s) rfl hport hp hd, clientReturn_pend]
      simp only [reply, begun, raise]
    case noWait =>
      rw [exec_pend_of_mayCall (mayCall_pend hproc hlock),
        clientTurn_read_of_no_wait (s := begun _ s) rfl hport hp hd hq hT, clientReturn_pend]
      simp only [reply, begun, raise]
    case waits =>
      rw [exec_pend_of_wait rfl hproc hlock hport hp hd hq hT]
      simp only [pendWaits, armRead, setProc, begun]
  case terminal =>
    intro rw d timeout T k s ended hT hproc hlock hport hd hp hq hk hended
    have hends : ∀ rs, clientTurn { enterTerminal (pendWaitsAfter k rw d T s) with
        resp := (enterTerminal (pendWaitsAfter k rw d T s)).resp ++ rs } = ended rs := by
      intro rs
      rw [clientTurn_enterTerminal rfl rfl rfl, hended]
      simp only [pendWaitsAfter, pendWaits, armRead, setProc, begun, hp, hq]
    refine ⟨_, _, _, _, exec_pend_of_wait hT hproc hlock hport hp hd hq (ne_zero_of_lt_toNat hk),
      ticks_pendWaits hk, exec_ioErr _, ?_, exec_close _, hends _⟩
    have hnil := hends []
    rw [List.append_nil] at hnil
    exact hnil

end Sys2Proof.Machine
end

section
/-! GET_RANGE (spec/44_host_client.md R230, R231). -/

namespace Sys2Proof.Machine

-- one more elaboration thread here can exceed the memory limit of the whole text
set_option Elab.async false

section
variable {s t u : State} {ctx : Ctx} {rw : Bool} {d : Descriptor} {st : Status} {frame : Option Frame} {saved : Byte}
  {left count n : Nat} {done : List Slot}

/-! ### The call -/

/-- The number of slots that a GET_RANGE asks for, and how many free values are drawn after it (log 15). -/
theorem range_opened {startId endId : Byte} {drawn : Nat}
    (h : startId.toNat ≤ endId.toNat ∧ count = endId.toNat - startId.toNat + 1 ∧ drawn = s.draws ∨
      endId.toNat < startId.toNat ∧ count = Config.freeSlots s.draws ∧ drawn = s.draws + 1)
    (hproc : s.client.proc = none) (hlock : s.client.lock = false) :
    rangeCount startId endId s = count ∧ drawSlots d startId endId s = { s with draws := drawn } := by
  obtain ⟨hle, rfl, rfl⟩ | ⟨hlt, rfl, rfl⟩ := h
  · exact ⟨if_pos hle, if_neg fun h => absurd h.1 (Nat.not_lt.2 hle)⟩
  · exact ⟨if_neg (Nat.not_le.2 hlt), if_pos ⟨hlt, mayCall_of_free hproc hlock ..⟩⟩

/-- GET_RANGE, before its first command (R230). -/
def rangeBegun (d : Descriptor) (count drawn : Nat) (s : State) : State :=
  begun ⟨.rangeOpen d s.client.targetId count, .connectFlush (wildcardOf s) s.client.auxId⟩ { s with draws := drawn }

theorem exec_getRange_of_free {startId endId : Byte} {drawn : Nat}
    (h : startId.toNat ≤ endId.toNat ∧ count = endId.toNat - startId.toNat + 1 ∧ drawn = s.draws ∨
      endId.toNat < startId.toNat ∧ count = Config.freeSlots s.draws ∧ drawn = s.draws + 1)
    (hproc : s.client.proc = none) (hlock : s.client.lock = false) :
    exec (.getRange d startId endId) s = .next (clientTurn (rangeBegun d count drawn s)) := by
  obtain ⟨hcount, hdraw⟩ := range_opened (d := d) h hproc hlock
  refine congrArg Host.Outcome.next ?_
  rw [hcount, hdraw]
  exact beginCall_of_free (s := { s with draws := drawn }) hproc hlock ..

/-! ### What follows each command -/

theorem nextSlot_of_zero (d : Descriptor) (saved : Byte) (done : List Slot) (s : State) :
    nextSlot d saved 0 done s = setProc (.rangeClose done) (.connectFlush saved s.client.auxId) s := rfl

theorem nextSlot_of_pos (h : left ≠ 0) (d : Descriptor) (saved : Byte) (done : List Slot) (s : State) :
    nextSlot d saved left done s = setProc (.rangePend d saved left done) (.pendRead false d s.cfg.tDefault) s :=
  if_neg h

/-- A SEND that fails closes the range with its status in every slot (R230). -/
theorem clientReturn_rangeSend_failed (hst : st ≠ .ok) (d : Descriptor) (saved : Byte) (count : Nat)
    (frame : Option Frame) (s : State) : clientReturn (.rangeSend d saved count) st frame s =
      setProc (.rangeClose (List.replicate count ⟨st, []⟩)) (.connectFlush saved s.client.auxId) s := if_neg hst

theorem map_data_eq_payloadOf (frame : Option Frame) : (frame.map Frame.data).getD [] = payloadOf frame := by
  cases frame with
  | none => rfl
  | some f => cases f <;> rfl

/-- What a PEND returns goes into the next slot (R230). -/
theorem clientReturn_rangePend (d : Descriptor) (saved : Byte) (left : Nat) (done : List Slot) (st : Status)
    (frame : Option Frame) (s : State) : clientReturn (.rangePend d saved left done) st frame s =
      nextSlot d saved (left - 1) (done ++ [⟨st, payloadOf frame⟩]) s := by
  rw [← map_data_eq_payloadOf]
  rfl

theorem clientReturn_rangeClose (done : List Slot) (st : Status) (frame : Option Frame) (s : State) :
    clientReturn (.rangeClose done) st frame s = { s with client := { s.client with
      lock := false, pair := false, proc := none, results := s.client.results ++ [.range done] } } := rfl

theorem clientReturn_rangeOpen (d : Descriptor) (saved : Byte) (count : Nat) (st : Status) (frame : Option Frame)
    (s : State) : clientReturn (.rangeOpen d saved count) st frame s =
      setProc (.rangeSend d saved count) (.sendQuery false d []) s := rfl

/-! ### A SEND that fails at once, with no other step between it and the CONNECT_TO back -/

section
variable (hproc : s.client.proc = some ⟨.rangeSend d saved count, .sendQuery false d []⟩) (hport : s.port = [])
include hproc hport

theorem clientTurns_rangeSend_of_dead (hd : s.dead = true) : clientTurns 2 s =
    { s with
      resp := s.resp ++ [⟨0x24, ⟨.ok, [0x01]⟩⟩, ⟨0x21, ⟨.dead, []⟩⟩]
      client := { s.client with
        targetId := saved, lock := false, pair := false, proc := none
        results := s.client.results ++ [.range (List.replicate count ⟨.dead, []⟩)] } } := by
  let u := setProc (.rangeClose (List.replicate count ⟨.dead, []⟩)) (.connectFlush saved s.client.auxId)
    (reply 0x24 (respond .ok [0x01]) s)
  have hqueried : clientTurn s = u :=
    (clientTurn_query_of_dead hproc hport hd).trans (clientReturn_rangeSend_failed (by decide) ..)
  have hclosed : clientTurn u = clientReturn (.rangeClose _) .dead none (reply 0x21 (raise .dead) (retarget _ _ u)) :=
    clientTurn_connect_of_dead rfl (by simp only [u, setProc_port, reply_port, hport])
      (by simp only [u, setProc_dead, reply_dead, hd])
  rw [clientTurns, clientTurns, clientTurns, hqueried, hclosed, clientReturn_rangeClose]
  simp [u, reply, retarget, setProc, raise, respond]

theorem clientTurns_rangeSend_of_misfit (hd : s.dead = false) (hlen : requestLength d false [] = none) :
    clientTurns 2 s = { s with
      q := [], rxn := 0, dstate := .awaitFrom, expFrom := saved, expTo := s.cfg.hostId, expSet := true
      resp := s.resp ++ [⟨0x24, ⟨.ok, [0x00]⟩⟩, ⟨0x21, ⟨.ok, []⟩⟩]
      client := { s.client with
        targetId := saved, lock := false, pair := false, proc := none
        results := s.client.results ++ [.range (List.replicate count ⟨.len, []⟩)] } } := by
  let u := setProc (.rangeClose (List.replicate count ⟨.len, []⟩)) (.connectFlush saved s.client.auxId)
    (reply 0x24 (respond .ok [0x00]) s)
  have hqueried : clientTurn s = u :=
    (clientTurn_query_of_misfit hproc hport hd hlen).trans (clientReturn_rangeSend_failed (by decide) ..)
  have hclosed : clientTurn u = clientReturn (.rangeClose _) .ok none (repointed _ _ u) :=
    clientTurn_connect_of_live rfl (by simp only [u, setProc_port, reply_port, hport])
      (by simp only [u, setProc_dead, reply_dead, hd])
  rw [clientTurns, clientTurns, clientTurns, hqueried, hclosed, clientReturn_rangeClose]
  simp [u, reply, repointed, setProc, respond]

end

/-! ### A turn stays in its procedure, or the procedure returns -/

/-- From `s` to `t` the command of a procedure in the context `ctx` leaves it there, or ends it. -/
def StaysOrReturns (ctx : Ctx) (s t : State) : Prop :=
  (∃ stage, t.client.proc = some ⟨ctx, stage⟩) ∨
    ∃ st frame u, u.client.results = s.client.results ∧ t = clientReturn ctx st frame u

theorem afterRead_staysOrReturns (ctx : Ctx) (rw : Bool) (d : Descriptor) (r : Reply)
    (h : u.client.results = s.client.results) : StaysOrReturns ctx s (afterRead ctx rw d r u) := by
  unfold afterRead
  split
  · exact .inl ⟨_, rfl⟩
  split <;> exact .inr ⟨_, _, u, h, rfl⟩

theorem issueQuery_staysOrReturns (ctx : Ctx) (rw : Bool) (d : Descriptor) (payload : List Byte) (s : State) :
    StaysOrReturns ctx s (issueQuery ctx rw d payload s) := by
  unfold issueQuery
  dsimp only
  split
  · exact .inr ⟨_, _, _, by rw [reply_client], rfl⟩
  split
  · exact .inr ⟨_, _, _, by rw [reply_client], rfl⟩
  · exact .inl ⟨_, rfl⟩

theorem issuePack_staysOrReturns (ctx : Ctx) (rw : Bool) (d : Descriptor) (data : List Byte) (s : State) :
    StaysOrReturns ctx s (issuePack ctx rw d data s) := by
  unfold issuePack
  dsimp only
  split
  · exact .inl ⟨_, rfl⟩
  · exact .inr ⟨_, _, _, by rw [reply_client], rfl⟩

theorem issueRead_staysOrReturns (ctx : Ctx) (rw : Bool) (d : Descriptor) (T : Word) (s : State) :
    StaysOrReturns ctx s (issueRead ctx rw d T s) := by
  unfold issueRead
  obtain ⟨-, heq⟩ | ⟨item, rest, -, -, heq⟩ | ⟨-, -, -, heq⟩ | ⟨-, -, -, heq⟩ := qRead_cases .client T s <;> rw [heq]
  · exact afterRead_staysOrReturns _ _ _ _ rfl
  · exact afterRead_staysOrReturns _ _ _ _ rfl
  · exact afterRead_staysOrReturns _ _ _ _ rfl
  · exact .inl ⟨_, rfl⟩

theorem issueUnpack_staysOrReturns (ctx : Ctx) (rw : Bool) (d : Descriptor) (item : List Byte) (s : State) :
    StaysOrReturns ctx s (issueUnpack ctx rw d item s) := by
  unfold issueUnpack
  split <;> dsimp only <;> split <;> exact .inr ⟨_, _, _, by rw [reply_client], rfl⟩

theorem issueStage_staysOrReturns {p : Proc} (hproc : s.client.proc = some p) :
    StaysOrReturns p.ctx s (issueStage p s) := by
  obtain ⟨ctx, stage⟩ := p
  cases stage with
  | connectFlush => exact .inr ⟨_, _, _, by rw [reply_client, flush_client]; rfl, issueStage_connect ..⟩
  | sendQuery => exact issueQuery_staysOrReturns ..
  | sendPack => exact issuePack_staysOrReturns ..
  | sendWrite => exact .inr ⟨_, _, _, by rw [reply_client, txWrite_client], rfl⟩
  | pendRead => exact issueRead_staysOrReturns ..
  | pendWait =>
    unfold issueStage
    dsimp only
    split
    · exact .inl ⟨_, hproc⟩
    · exact afterRead_staysOrReturns _ _ _ _ rfl
  | pendUnpack => exact issueUnpack_staysOrReturns ..

theorem clientTurn_staysOrReturns {p : Proc} (hproc : s.client.proc = some p) :
    StaysOrReturns p.ctx s (clientTurn s) := by
  cases hready : clientReady s with
  | false =>
    rw [clientTurn_of_not_ready hready]
    exact .inl ⟨_, hproc⟩
  | true =>
    rw [clientTurn_of_ready hproc hready]
    exact issueStage_staysOrReturns hproc

/-! ### The slots -/

/-- The procedure is a GET_RANGE that will return `n` slots, and no PEND runs for a slot beyond them. -/
def HoldsSlots (n : Nat) (ctx : Ctx) : Prop :=
  slotCount ctx = some n ∧ ∀ d saved done, ctx ≠ .rangePend d saved 0 done

theorem nextSlot_holdsSlots (d : Descriptor) (saved : Byte) (left : Nat) (done : List Slot) (s : State) :
    ∃ p, (nextSlot d saved left done s).client.proc = some p ∧ HoldsSlots (done.length + left) p.ctx := by
  by_cases h : left = 0
  · subst h
    exact ⟨_, rfl, rfl, nofun⟩
  · rw [nextSlot_of_pos h]
    refine ⟨_, rfl, rfl, fun _ _ _ heq => ?_⟩
    cases heq
    exact h rfl

/-- Where a CONNECT_TO, SEND or PEND of a GET_RANGE returns, the range holds as many slots as before, or has returned
that many. -/
theorem clientReturn_holdsSlots (h : HoldsSlots n ctx) (st : Status) (frame : Option Frame) (u : State) :
    (∃ p, (clientReturn ctx st frame u).client.proc = some p ∧ HoldsSlots n p.ctx) ∨
    ((clientReturn ctx st frame u).client.proc = none ∧ ∃ slots : List Slot, slots.length = n ∧
      (clientReturn ctx st frame u).client.results = u.client.results ++ [.range slots]) := by
  obtain ⟨hcount, hopen⟩ := h
  cases ctx with
  | top | deviceOpen | deviceSend | devicePend => cases hcount
  | rangeOpen d saved count => exact .inl ⟨_, rfl, hcount, nofun⟩
  | rangeClose done =>
    cases hcount
    exact .inr ⟨rfl, done, rfl, rfl⟩
  | rangeSend d saved count =>
    cases hcount
    by_cases hst : st = .ok
    · subst hst
      have hnext := nextSlot_holdsSlots d saved n [] u
      rw [List.length_nil, Nat.zero_add] at hnext
      exact .inl hnext
    · rw [clientReturn_rangeSend_failed hst]
      exact .inl ⟨_, rfl, by simp [slotCount], nofun⟩
  | rangePend d saved left done =>
    cases hcount
    have hpos : left ≠ 0 := by
      rintro rfl
      exact hopen d saved done rfl
    have hnext := nextSlot_holdsSlots d saved (left - 1) (done ++ [⟨st, payloadOf frame⟩]) u
    have hsum : (done ++ [(⟨st, payloadOf frame⟩ : Slot)]).length + (left - 1) = done.length + left := by
      rw [List.length_append, List.length_singleton]
      omega
    rw [hsum] at hnext
    rw [clientReturn_rangePend]
    exact .inl hnext

theorem clientTurn_holdsSlots {p : Proc} (hproc : s.client.proc = some p) (h : HoldsSlots n p.ctx) :
    (∃ q, (clientTurn s).client.proc = some q ∧ HoldsSlots n q.ctx) ∨
    ((clientTurn s).client.proc = none ∧ ∃ slots : List Slot, slots.length = n ∧
      (clientTurn s).client.results = s.client.results ++ [.range slots]) := by
  obtain ⟨stage, hstays⟩ | ⟨st, frame, u, hresults, heq⟩ := clientTurn_staysOrReturns hproc
  · exact .inl ⟨_, hstays, h⟩
  · rw [heq, ← hresults]
    exact clientReturn_holdsSlots h st frame u

/-! ### Items that are there -/

theorem clientTurns_add (m n : Nat) (s : State) : clientTurns (m + n) s = clientTurns n (clientTurns m s) := by
  induction m generalizing s with
  | zero => rw [Nat.zero_add, clientTurns]
  | succ m ih => rw [Nat.succ_add, clientTurns, clientTurns, ih]

/-- The slot holds what PEND makes of the item (R227, R230). -/
def SlotOf (s : State) (d : Descriptor) (item : List Byte) (slot : Slot) : Prop :=
  ∃ frame, ItemResult s false d item slot.status frame ∧ slot.payload = payloadOf frame

theorem SameTemplate.slotOf (h : SameTemplate s t) {item : List Byte} {slot : Slot} (hslot : SlotOf t d item slot) :
    SlotOf s d item slot := by
  obtain ⟨frame, hitem, hpayload⟩ := hslot
  exact ⟨frame, h.itemResult.1 hitem, hpayload⟩

/-- The PENDs of the slots still open take the items of the queue, one in two turns, and then the range is closed. -/
theorem clientTurns_rangePends {items rest : List (List Byte)} (hne : items ≠ [])
    (hproc : s.client.proc = some ⟨.rangePend d saved items.length done, .pendRead false d s.cfg.tDefault⟩)
    (hport : s.port = []) (hd : s.dead = false) (hp : s.rdPend = false) (hq : s.q = items ++ rest) :
    ∃ slots aux, List.Forall₂ (SlotOf s d) items slots ∧
      (clientTurns (2 * items.length) s).client.proc = some ⟨.rangeClose (done ++ slots), .connectFlush saved aux⟩ ∧
      (clientTurns (2 * items.length) s).port = [] ∧
      (clientTurns (2 * items.length) s).client.results = s.client.results := by
  induction items generalizing s done with
  | nil => exact absurd rfl hne
  | cons item items ih =>
    obtain ⟨st, frame, hitem⟩ := exists_itemResult s false d item
    let u := setProc (.rangePend d saved (item :: items).length done) (.pendUnpack false d item)
      (dequeued item (items ++ rest) s)
    have hturns : clientTurns 2 s = nextSlot d saved items.length (done ++ [⟨st, payloadOf frame⟩]) u := by
      rw [clientTurns_read_unpack hproc hport hp hd hq hitem, clientReturn_rangePend]
      rfl
    have hslot : SlotOf s d item ⟨st, payloadOf frame⟩ := ⟨frame, hitem, rfl⟩
    rw [List.length_cons, Nat.mul_succ, Nat.add_comm, clientTurns_add, hturns]
    cases items with
    | nil => exact ⟨[⟨st, payloadOf frame⟩], _, .cons hslot .nil, rfl, hport, rfl⟩
    | cons item' items =>
      let v := setProc (.rangePend d saved (item' :: items).length (done ++ [⟨st, payloadOf frame⟩]))
        (.pendRead false d s.cfg.tDefault) u
      have hnext : nextSlot d saved (item' :: items).length (done ++ [⟨st, payloadOf frame⟩]) u = v :=
        nextSlot_of_pos (by simp) ..
      obtain ⟨slots, aux, hslots, hproc', hport', hresults⟩ := ih (s := v) (by simp) rfl hport hd hp rfl
      rw [hnext]
      refine ⟨⟨st, payloadOf frame⟩ :: slots, aux, .cons hslot ?_, ?_, hport', hresults⟩
      · have hsame : SameTemplate s v := ⟨rfl, rfl, rfl, rfl⟩
        exact hslots.imp fun _ _ => hsame.slotOf
      · rw [hproc', List.append_assoc, List.singleton_append]

/-- The CONNECT_TO that ends a GET_RANGE puts the saved target back and returns the slots (R230). -/
theorem clientTurn_rangeClose {aux : Nat} (hproc : s.client.proc = some ⟨.rangeClose done, .connectFlush saved aux⟩)
    (hport : s.port = []) : (clientTurn s).client.targetId = saved ∧ (clientTurn s).client.auxId = aux ∧
      (clientTurn s).client.proc = none ∧ (clientTurn s).client.lock = false ∧
      (clientTurn s).client.results = s.client.results ++ [.range done] ∧
      (s.dead = false → (clientTurn s).expFrom = saved ∧ (clientTurn s).expTo = s.cfg.hostId) := by
  cases hd : s.dead with
  | false =>
    rw [clientTurn_connect_of_live hproc hport hd, clientReturn_rangeClose]
    exact ⟨rfl, rfl, rfl, rfl, rfl, fun _ => ⟨rfl, rfl⟩⟩
  | true =>
    rw [clientTurn_connect_of_dead hproc hport hd, clientReturn_rangeClose]
    exact ⟨rfl, rfl, rfl, rfl, rfl, nofun⟩

end

/-- Settles O56: the first command is a CONNECT_TO to the wildcard of the form in use, and the SEND is what follows. -/
theorem getRangePointsAtTheWildcard : Obligations.GetRangePointsAtTheWildcard := by
  intro d startId endId wild count drawn s hwild hcount hproc hlock hport hd
  have hw : wildcardOf s = wild := by
    obtain ⟨hf, rfl⟩ | ⟨hf, heq⟩ := hwild
    · simp only [wildcardOf, hf]
    · simp only [wildcardOf, hf]
      exact BitVec.eq_of_toNat_eq (by rw [byte7_toNat, heq])
  rw [exec_getRange_of_free hcount hproc hlock, rangeBegun, hw,
    clientTurn_connect_of_live (s := begun _ { s with draws := drawn }) rfl hport hd]
  simp only [clientReturn, setProc, repointed, begun]

/-- Settles O57: a turn of a GET_RANGE keeps the count of its slots, the end of a PEND fills the next one, the last
CONNECT_TO restores the target, and by induction on the items the slots are theirs. -/
theorem getRangeReturnsEverySlot : Obligations.GetRangeReturnsEverySlot := by
  refine ⟨fun s p n hproc hcount hopen => ?count, fun s d saved left done stage st frame hproc hends => ?fills,
    fun s done saved aux hproc hport => clientTurn_rangeClose hproc hport,
    fun s d saved items rest hproc hport hd hp hq hne => ?items⟩
  case count =>
    obtain ⟨q, hq, hslots⟩ | ⟨hnone, hreturned⟩ := clientTurn_holdsSlots hproc ⟨hcount, hopen⟩
    · refine ⟨fun p' hp' => ?_, fun hnone => ?_⟩
      · rw [hq] at hp'
        cases hp'
        exact hslots
      · rw [hq] at hnone
        cases hnone
    · refine ⟨fun p' hp' => ?_, fun _ => hreturned⟩
      rw [hnone] at hp'
      cases hp'
  case fills =>
    obtain ⟨resp, inbox, heq⟩ := hends.clientTurn_eq hproc
    rw [heq, clientReturn_rangePend]
    refine ⟨fun hleft => ?_, fun hleft => ?_⟩
    · rw [nextSlot_of_pos (by omega), setProc_client_proc]
    · rw [hleft, Nat.sub_self, nextSlot_of_zero, setProc_client_proc]
  case items =>
    obtain ⟨slots, aux, hslots, hproc', hport', hresults⟩ := clientTurns_rangePends hne hproc hport hd hp hq
    obtain ⟨htarget, -, hnone, -, hreturned, -⟩ := clientTurn_rangeClose hproc' hport'
    have hlast : clientTurns (2 * items.length + 1) s = clientTurn (clientTurns (2 * items.length) s) :=
      clientTurns_add ..
    rw [hlast]
    exact ⟨slots, hslots, by rw [hreturned, hresults]; rfl, htarget, hnone⟩

/-- Settles O58: on a dead and on a live block the three commands one after the other, CONNECT_TO, the IS.ERR of the
SEND that fails, and the CONNECT_TO back; and every end of a SEND that is not OK. -/
theorem getRangeOnDeadBlock : Obligations.GetRangeOnDeadBlock := by
  refine ⟨fun d startId endId count drawn s hcount hproc hlock hport hd => ?dead,
    fun d startId endId n count drawn s hcount hproc hlock hport hd hfixed hne => ?misfit,
    fun s d saved count stage st hproc hends hst => ?fails⟩
  case dead =>
    refine ⟨_, exec_getRange_of_free hcount hproc hlock, ?_⟩
    rw [clientTurn_connect_of_dead (s := rangeBegun d count drawn s) rfl hport hd, clientReturn_rangeOpen,
      clientTurns_rangeSend_of_dead (s := setProc _ _ _) rfl (by simp [retarget, rangeBegun, begun, hport])
        (by simp [retarget, rangeBegun, begun, hd])]
    simp [rangeBegun, begun, reply, retarget, setProc, raise]
  case misfit =>
    have hnone : requestLength d false [] = none := by
      simp only [requestLength, Bool.false_eq_true, if_false, hfixed]
      exact if_neg hne.symm
    refine ⟨_, exec_getRange_of_free hcount hproc hlock, ?_⟩
    rw [clientTurn_connect_of_live (s := rangeBegun d count drawn s) rfl hport hd, clientReturn_rangeOpen,
      clientTurns_rangeSend_of_misfit (s := setProc _ _ _) rfl (by simp [repointed, rangeBegun, begun, hport])
        (by simp [repointed, rangeBegun, begun, hd]) hnone]
    simp [rangeBegun, begun, repointed, setProc]
  case fails =>
    obtain ⟨resp, tx, heq, htx⟩ := hends.clientTurn_eq hproc
    rw [heq, clientReturn_rangeSend_failed hst]
    exact ⟨htx hst, rfl⟩

end Sys2Proof.Machine
end

section
/-! CONNECT_DEVICE (spec/44_host_client.md R232). -/

namespace Sys2Proof.Machine

-- one more elaboration thread here can exceed the memory limit of the whole text
set_option Elab.async false

section
variable {s : State} {st : Status} {left : Nat}

/-! ### What follows each command -/

theorem nextAttempt_of_zero (s : State) : nextAttempt 0 s = { s with client := { s.client with
    lock := false, pair := false, proc := none, results := s.client.results ++ [.status 0x44 .connect none] } } := rfl

theorem nextAttempt_of_pos (h : left ≠ 0) (s : State) : nextAttempt left s =
    setProc (.deviceSend left) (.sendQuery s.cfg.hsRw (handshakeDesc s.cfg) s.cfg.hsData) s := if_neg h

theorem clientReturn_deviceOpen (st : Status) (frame : Option Frame) (s : State) :
    clientReturn .deviceOpen st frame s = nextAttempt s.cfg.hsTries s := rfl

theorem clientReturn_deviceSend_of_dead (left : Nat) (frame : Option Frame) (s : State) :
    clientReturn (.deviceSend left) .dead frame s = { s with client := { s.client with
      lock := false, pair := false, proc := none, results := s.client.results ++ [.status 0x44 .dead none] } } := rfl

theorem clientReturn_deviceSend (hst : st ≠ .dead) (left : Nat) (frame : Option Frame) (s : State) :
    clientReturn (.deviceSend left) st frame s =
      setProc (.devicePend left) (.pendRead s.cfg.hsRw (handshakeDesc s.cfg) s.cfg.hsTimeout) s := if_neg hst

theorem clientReturn_devicePend_of_success (hst : st = .ok ∨ st = .state) (left : Nat) (frame : Option Frame)
    (s : State) : clientReturn (.devicePend left) st frame s = { s with client := { s.client with
      lock := false, pair := false, proc := none, results := s.client.results ++ [.status 0x44 .ok none] } } :=
  if_pos hst

theorem clientReturn_devicePend_of_dead (left : Nat) (frame : Option Frame) (s : State) :
    clientReturn (.devicePend left) .dead frame s = { s with client := { s.client with
      lock := false, pair := false, proc := none, results := s.client.results ++ [.status 0x44 .dead none] } } := rfl

theorem clientReturn_devicePend (hok : st ≠ .ok) (hstate : st ≠ .state) (hdead : st ≠ .dead) (left : Nat)
    (frame : Option Frame) (s : State) : clientReturn (.devicePend left) st frame s = nextAttempt (left - 1) s :=
  (if_neg (not_or.2 ⟨hok, hstate⟩)).trans (if_neg hdead)

/-- Going on and returning write nothing on the TX port. -/
theorem ProcMoves.tx {ctx : Ctx} {u t : State} (hm : ProcMoves ctx u t) : t.tx = u.tx := by
  cases hm <;> rfl

/-! ### The handshake's request -/

/-- The handshake's payload fits its descriptor, whichever way it is sent (R222, R232). -/
theorem requestLength_handshake (cfg : Config) (rw : Bool) :
    requestLength (handshakeDesc cfg) rw cfg.hsData = some cfg.hsData.length := by
  cases rw <;> exact if_pos rfl

/-- CONNECT_DEVICE, before its first command (R232). -/
def deviceBegun (s : State) : State := begun ⟨.deviceOpen, .connectFlush wildcardRs 0⟩ s

theorem exec_connectDevice_of_free (hproc : s.client.proc = none) (hlock : s.client.lock = false) :
    exec .connectDevice s = .next (clientTurn (deviceBegun s)) := congrArg _ (beginCall_of_free hproc hlock ..)

/-- The frame of the handshake, and the opcode of the PACK that answers it (R232). -/
theorem packCommand_handshake {code : Byte} {frame : List Byte}
    (h : s.client.form = .rs ∧ s.cfg.hsData.length ≤ 125 ∧ code = 0x10 ∧ frame = packRs s.cfg
        ⟨s.cfg.hostId, 0x55, s.client.tstate, s.cfg.hsRw, 0x7F, s.cfg.hsData⟩ ∨
      s.client.form = .can ∧ s.cfg.hsData.length ≤ 7 ∧ code = 0x11 ∧ frame = packCan s.cfg
        ⟨0x55, s.client.tstate, s.cfg.hsRw, 0x7F, s.cfg.hsData⟩) (p : Proc) :
    packCommand s.cfg.hsRw (handshakeDesc s.cfg) s.cfg.hsData (repointed wildcardRs 0 (begun p s)) =
      (code, respond .ok (countByte frame :: frame)) := by
  obtain ⟨hf, hfit, rfl, rfl⟩ | ⟨hf, hfit, rfl, rfl⟩ := h
  · exact packCommand_rs (s := repointed wildcardRs 0 (begun p s)) hf hfit
  · exact packCommand_can (s := repointed wildcardRs 0 (begun p s)) hf (by decide : wildcardRs.toNat < 128) hfit

end

/-- Settles O59: the CONNECT_TO to the wildcard, the three commands of the handshake's SEND, and then the
PEND. -/
theorem connectDeviceWritesTheHandshake : Obligations.ConnectDeviceWritesTheHandshake := by
  intro s code frame hproc hlock hport hd htries hform
  let t := setProc (.deviceSend s.cfg.hsTries) (.sendQuery s.cfg.hsRw (handshakeDesc s.cfg) s.cfg.hsData)
    (repointed wildcardRs 0 (deviceBegun s))
  have hopened : clientTurn (deviceBegun s) = t := by
    rw [clientTurn_connect_of_live (s := deviceBegun s) rfl hport hd, clientReturn_deviceOpen]
    exact nextAttempt_of_pos htries _
  have hsent : clientTurns 2 (clientTurn t) =
      clientReturn (.deviceSend s.cfg.hsTries) .ok none (setProc _ (.sendWrite frame) (sent code frame t)) :=
    clientTurns_send (s := t) rfl hport hd (requestLength_handshake ..)
      (by rw [packCommand_setProc]; exact packCommand_handshake hform _)
  refine ⟨t, by rw [exec_connectDevice_of_free hproc hlock, hopened], ?_⟩
  rw [clientTurns, hsent, clientReturn_deviceSend (by decide)]
  simp [t, setProc, sent, repointed, deviceBegun, begun, countByte]

/-- Settles O60: what CONNECT_DEVICE makes of the end of an attempt's PEND and of its SEND, and the item that a waiting
PEND takes. -/
theorem handshakeAttemptDecides : Obligations.HandshakeAttemptDecides := by
  refine ⟨fun s left stage st frame t hproc hends ht => ?pend,
    fun s ctx rw d n item hproc hinbox => clientTurn_wait_of_item hproc hinbox,
    fun s left stage st t hproc hends ht => ?send⟩
  case pend =>
    obtain ⟨resp, inbox, heq⟩ := hends.clientTurn_eq hproc
    rw [ht, heq]
    refine ⟨fun hst => ?success, fun hst => ?dead, fun hok hstate hdead hleft => ?last,
      fun hok hstate hdead hleft => ?again⟩
    case success =>
      rw [clientReturn_devicePend_of_success hst]
      exact ⟨rfl, rfl, rfl, rfl⟩
    case dead =>
      rw [hst, clientReturn_devicePend_of_dead]
      exact ⟨rfl, rfl, rfl, rfl⟩
    case last =>
      rw [clientReturn_devicePend hok hstate hdead, Nat.sub_eq_zero_of_le hleft, nextAttempt_of_zero]
      exact ⟨rfl, rfl, rfl, rfl⟩
    case again =>
      rw [clientReturn_devicePend hok hstate hdead, nextAttempt_of_pos (by omega)]
      exact ⟨rfl, rfl, rfl⟩
  case send =>
    obtain ⟨resp, tx, heq, htx⟩ := hends.clientTurn_eq hproc
    rw [ht, heq]
    refine ⟨fun hst => ?unsent, fun hst => ?dead, fun hst => ?goesOn⟩
    case unsent => exact (clientReturn_moves ..).tx.trans (htx hst)
    case dead =>
      rw [hst, clientReturn_deviceSend_of_dead]
      exact ⟨rfl, rfl, rfl, rfl⟩
    case goesOn =>
      rw [clientReturn_deviceSend hst]
      exact ⟨rfl, rfl, rfl⟩

end Sys2Proof.Machine
end

section
/-! The steps of one clock cycle (spec/60_exceptions.md R262): the order in which they are performed, and which of them a
cycle performs. -/

namespace Sys2Proof.Machine

-- one more elaboration thread here can exceed the memory limit of the whole text
set_option Elab.async false

/-! ### The places of R262's order -/

theorem cycleRank_eq_zero_iff (i : Instr) : cycleRank i = 0 ↔ IsTerminal i := by
  cases i <;> simp [cycleRank, IsTerminal]

theorem cycleRank_eq_one_iff (i : Instr) : cycleRank i = 1 ↔ IsFlush i := by
  cases i <;> simp [cycleRank, IsFlush]

theorem cycleRank_eq_two_iff (i : Instr) : cycleRank i = 2 ↔ IsPush i := by
  cases i <;> simp [cycleRank, IsPush]

theorem cycleRank_lt_four_of_ne_tick {i : Instr} (h : i ≠ .tick) : cycleRank i < 4 := by
  cases i <;> simp_all [cycleRank]

/-! ### Sorting by rank -/

/-- No instruction stands behind one of a greater rank. -/
abbrev RankSorted (is : List Instr) : Prop := is.Pairwise fun i j => cycleRank i ≤ cycleRank j

theorem insertByRank_perm (i : Instr) (is : List Instr) : (insertByRank i is).Perm (i :: is) := by
  induction is with
  | nil => exact .refl _
  | cons j js ih =>
    rw [insertByRank]
    split
    · exact (ih.cons j).trans (.swap i j js)
    · exact .refl _

theorem RankSorted.insertByRank {is : List Instr} (h : RankSorted is) (i : Instr) :
    RankSorted (insertByRank i is) := by
  induction is with
  | nil => exact List.pairwise_singleton ..
  | cons j js ih =>
    obtain ⟨hj, hjs⟩ := List.pairwise_cons.mp h
    rw [Machine.insertByRank]
    split
    case isTrue hle =>
      refine List.pairwise_cons.mpr ⟨fun k hk => ?_, ih hjs⟩
      obtain rfl | hk := List.mem_cons.mp ((insertByRank_perm i js).mem_iff.mp hk)
      · exact hle
      · exact hj k hk
    case isFalse hlt =>
      refine List.pairwise_cons.mpr ⟨fun k hk => ?_, h⟩
      obtain rfl | hk := List.mem_cons.mp hk
      · omega
      · have := hj k hk
        omega

/-- An instruction goes behind those of its own rank: among the instructions of one rank it is the last. -/
theorem filter_insertByRank {p : Instr → Bool} {r : Nat} (hp : ∀ i, p i = true → cycleRank i = r) {is : List Instr}
    (h : RankSorted is) (i : Instr) : (insertByRank i is).filter p = is.filter p ++ [i].filter p := by
  induction is with
  | nil => rfl
  | cons j js ih =>
    obtain ⟨hj, hjs⟩ := List.pairwise_cons.mp h
    rw [insertByRank]
    split
    case isTrue =>
      rw [List.filter_cons, List.filter_cons, ih hjs]
      split <;> rfl
    case isFalse hlt =>
      cases hi : p i with
      | false => simp [hi]
      | true =>
        have hnone : (j :: js).filter p = [] := List.filter_eq_nil_iff.mpr fun k hk hpk => by
          have hle : cycleRank j ≤ cycleRank k := by
            obtain rfl | hk := List.mem_cons.mp hk
            · exact Nat.le_refl _
            · exact hj k hk
          have := hp i hi
          have := hp k hpk
          omega
        rw [List.filter_cons_of_pos hi, hnone, List.filter_cons_of_pos hi]
        rfl

theorem cycleOrder_concat (is : List Instr) (i : Instr) :
    cycleOrder (is ++ [i]) = insertByRank i (cycleOrder is) := by
  simp [cycleOrder]

theorem cycleOrder_perm (is : List Instr) : (cycleOrder is).Perm is := by
  induction is using List.reverseRecOn with
  | nil => exact .refl _
  | append_singleton is i ih =>
    rw [cycleOrder_concat]
    exact ((insertByRank_perm i _).trans (ih.cons i)).trans (List.perm_append_singleton i is).symm

theorem cycleOrder_rankSorted (is : List Instr) : RankSorted (cycleOrder is) := by
  induction is using List.reverseRecOn with
  | nil => exact .nil
  | append_singleton is i ih =>
    rw [cycleOrder_concat]
    exact ih.insertByRank i

/-- The instructions of one rank keep their order. -/
theorem filter_cycleOrder {p : Instr → Bool} {r : Nat} (hp : ∀ i, p i = true → cycleRank i = r) (is : List Instr) :
    (cycleOrder is).filter p = is.filter p := by
  induction is using List.reverseRecOn with
  | nil => rfl
  | append_singleton is i ih =>
    rw [cycleOrder_concat, filter_insertByRank hp (cycleOrder_rankSorted is), ih, List.filter_append]

theorem cycleRank_le_of_mem_front {is front back : List Instr} {i : Instr} (h : cycleOrder is = front ++ i :: back) :
    ∀ j ∈ front, cycleRank j ≤ cycleRank i := by
  have hsorted := cycleOrder_rankSorted is
  rw [h] at hsorted
  obtain ⟨-, -, hle⟩ := List.pairwise_append.mp hsorted
  exact fun j hj => hle j hj i List.mem_cons_self

/-! ### What a cycle performs -/

/-- What the host does in a cycle: its commands and calls (R262). -/
def hostSteps (is : List Instr) : List Instr := is.filter fun i => i.port = .command ∨ i.port = .call

section
variable {s : State} {is : List Instr} {more : List Stim}

theorem mem_hostSteps {i : Instr} : i ∈ hostSteps is ↔ i ∈ is ∧ (i.port = .command ∨ i.port = .call) := by
  simp [hostSteps]

theorem inputTurn_of_cycle (h : s.inp = .cycle is :: more) (hrx : s.rxRest = [] ∨ ∀ i ∈ is, i.port ≠ .rx) :
    inputTurn s = cycleTurn is { s with inp := more } := by
  have hfree : ¬ ((∃ i ∈ is, i.port = .rx) ∧ s.rxRest ≠ []) := fun ⟨⟨i, hi, hport⟩, hne⟩ =>
    hrx.elim hne fun hnone => hnone i hi hport
  simp only [inputTurn, h, if_neg hfree]

/-- An event of the RX agent waits for the chunk that the agent delivers (R182). -/
theorem inputTurn_of_cycle_waiting {b : Byte} {bs : List Byte} (h : s.inp = .cycle is :: more)
    (hrest : s.rxRest = b :: bs) (hrx : ∃ i ∈ is, i.port = .rx) :
    inputTurn s = exec (.decFeed b) { s with rxRest := bs } := by
  have hwaits : (∃ i ∈ is, i.port = .rx) ∧ s.rxRest ≠ [] := ⟨hrx, by simp [hrest]⟩
  calc inputTurn s
      = rxTurn s := by simp only [inputTurn, h, if_pos hwaits]
    _ = exec (.decFeed b) { s with rxRest := bs } := rxTurn_of_chunk hrest

/-- With no byte on the command port the first call of the cycle falls in it. -/
theorem cycleTurn_of_no_bytes (hport : s.port = []) (hcommands : (is.filter fun i => i.port = .command) = []) :
    cycleTurn is s = runInstrs (cycleOrder (cycleEvents s.decAttached is ++
        (is.filter fun i => i.port = .call).take 1))
      { s with inp := ((is.filter fun i => i.port = .call).drop 1).map (fun i => .cycle [i]) ++ s.inp } :=
  if_pos (by rw [hport, hcommands]; rfl)

/-- With no call in the cycle the port accepts the command at its head (R308). -/
theorem cycleTurn_of_command {c : Instr} {rest : List Byte} (hcalls : (is.filter fun i => i.port = .call) = [])
    (hd : decodeCommand (s.port ++ (is.filter fun i => i.port = .command).flatMap encode) = .ok c rest) :
    cycleTurn is s = runInstrs (cycleOrder (cycleEvents s.decAttached is ++ [c])) { s with port := rest } := by
  have hne : s.port ++ (is.filter fun i => i.port = .command).flatMap encode ≠ [] := fun hnil => by
    rw [hnil] at hd
    cases hd
  simp only [cycleTurn, if_neg hne, hcalls, runInstrs, acceptHead, hd]

/-- The commands, and likewise the calls, are among what the host does in the cycle. -/
theorem filter_port_eq_filter_hostSteps {p : Port} (hp : p = .command ∨ p = .call) :
    (is.filter fun i => i.port = p) = (hostSteps is).filter fun i => i.port = p := by
  rw [hostSteps, List.filter_filter]
  refine List.filter_congr fun i _ => ?_
  by_cases hi : i.port = p
  · simpa [hi] using hp
  · simp [hi]

/-- On an empty port a cycle with at most one command or call performs its events and that one (R262). -/
theorem cycleTurn_of_one_host_step (hport : s.port = []) (hone : (hostSteps is).length ≤ 1)
    (hw : ∀ i ∈ hostSteps is, i.WellFormed) :
    cycleTurn is s = runInstrs (cycleOrder (cycleEvents s.decAttached is ++ hostSteps is)) s := by
  have hcommands := filter_port_eq_filter_hostSteps (is := is) (p := .command) (.inl rfl)
  have hcalls := filter_port_eq_filter_hostSteps (is := is) (p := .call) (.inr rfl)
  have hhost : ∀ i ∈ hostSteps is, i.port = .command ∨ i.port = .call := fun i hi => (mem_hostSteps.mp hi).2
  generalize hostSteps is = host at *
  obtain hnone | hsingle := Nat.le_one_iff_eq_zero_or_eq_one.mp hone
  case inl =>
    obtain rfl := List.length_eq_zero_iff.mp hnone
    rw [cycleTurn_of_no_bytes hport hcommands, hcalls]
    rfl
  case inr =>
    obtain ⟨c, rfl⟩ := List.length_eq_one_iff.mp hsingle
    obtain hc | hc := hhost c (List.mem_singleton_self c)
    · have hd : decodeCommand (s.port ++ (is.filter fun i => i.port = .command).flatMap encode) = .ok c [] := by
        simpa [hport, hcommands, hc] using decodeCommand_encode (hw c (List.mem_singleton_self c)) hc []
      rw [cycleTurn_of_command (by simp [hcalls, hc]) hd, ← hport]
    · rw [cycleTurn_of_no_bytes hport (by simp [hcommands, hc]), hcalls]
      simp [hc]

/-- A command that falls in a cycle alone goes behind the Q.READ held at the port, which stays there (R308). -/
theorem cycleTurn_of_held_read {c : Instr} {hi lo : Byte} {behind : List Byte} (hc : c.port = .command)
    (hp : s.rdPend = true) (hport : s.port = [0x20, hi, lo] ++ behind) :
    cycleTurn [c] s = .next { s with port := s.port ++ encode c } := by
  have hd : decodeCommand (s.port ++ ([c].filter fun i => i.port = .command).flatMap encode) =
      .ok (.qRead hi lo) (behind ++ encode c) := by
    simp [hport, hc]
    rfl
  have hevents : cycleEvents s.decAttached [c] = [] := by simp [cycleEvents, hc]
  rw [cycleTurn_of_command (by simp [hc]) hd, hevents]
  calc runInstrs [.qRead hi lo] { s with port := behind ++ encode c }
      = andThen (exec (.qRead hi lo) { s with port := behind ++ encode c }) (runInstrs []) := runInstrs_cons ..
    _ = .next { s with port := [0x20, hi, lo] ++ (behind ++ encode c) } := by
      rw [exec_qRead_of_pending (s := { s with port := behind ++ encode c }) hp]
      rfl
    _ = .next { s with port := s.port ++ encode c } := by rw [hport, List.append_assoc]

end

/-- Settles O42: the order is a stable sorting by rank, and each further clause is the cycle's turn. -/
theorem cycleOrderFollowsTheRanks : Obligations.CycleOrderFollowsTheRanks := by
  refine ⟨fun is => ⟨cycleOrder_perm is, fun front back i h => ?order, fun isPush hpush => ?pushes⟩,
    ?performed, ?waits, ?held⟩
  case order =>
    have hle := cycleRank_le_of_mem_front h
    simp only [← cycleRank_eq_zero_iff, ← cycleRank_eq_one_iff, ← cycleRank_eq_two_iff]
    refine ⟨fun hi j hj => ?_, fun hi j hj => ?_, fun hi j hj => ?_, fun hi hj => ?_⟩
    case refine_4 =>
      have htick : 4 ≤ cycleRank i := hle .tick hj
      have := cycleRank_lt_four_of_ne_tick hi
      omega
    all_goals
      have := hle j hj
      omega
  case pushes => exact filter_cycleOrder (fun i hi => (cycleRank_eq_two_iff i).mpr ((hpush i).mp hi)) is
  case performed =>
    intro s ts is events host more hs hinp hport hrest hevents hhost hone hw
    subst hhost
    rw [step_of_sched hs, hevents]
    calc inputTurn { s with sched := ts }
        = cycleTurn is { s with sched := ts, inp := more } := inputTurn_of_cycle hinp (.inl hrest)
      _ = runInstrs (cycleOrder (cycleEvents s.decAttached is ++ hostSteps is))
            { s with sched := ts, inp := more } := cycleTurn_of_one_host_step hport hone hw
  case waits =>
    intro s ts is more b bs hs hinp hrest hrx
    rw [step_of_sched hs]
    exact inputTurn_of_cycle_waiting hinp hrest hrx
  case held =>
    intro s ts c more hi lo behind hs hinp hc hp hport
    rw [step_of_sched hs]
    calc inputTurn { s with sched := ts }
        = cycleTurn [c] { s with sched := ts, inp := more } := inputTurn_of_cycle hinp (.inr (by simp [hc]))
      _ = .next { s with sched := ts, inp := more, port := s.port ++ encode c } := cycleTurn_of_held_read hc hp hport

end Sys2Proof.Machine
end

section
/-! The reset input (spec/70_reset_and_hazards.md R290 to R292). -/

namespace Sys2Proof.Machine

section
variable {s : State} {d : Bool} {more : List Stim}

theorem inputTurn_of_reset (h : s.inp = .reset d :: more) :
    inputTurn s = .next (applyReset d { s with inp := more }) := by
  simp only [inputTurn, h]

/-- The step that takes the reset input has a next state, whatever work is in progress (R290, R292). -/
theorem step_of_reset {ts : List Turn} (hs : s.sched = .input :: ts) (hinp : s.inp = .reset d :: more) :
    step s = .next (applyReset d { s with sched := ts, inp := more }) := by
  rw [step_of_sched hs]
  exact inputTurn_of_reset (s := { s with sched := ts }) hinp

end

/-- The registers of R291 that have one value after every reset, whatever the parameters are. -/
theorem applyReset_registers (d : Bool) (s : State) :
    (applyReset d s).rxn = 0 ∧ (applyReset d s).drem = 0 ∧ (applyReset d s).dstate = .awaitFrom ∧
      (applyReset d s).dead = false ∧ (applyReset d s).rdPend = false ∧ (applyReset d s).rdTmr = 0 ∧
      (applyReset d s).q = [] ∧ (applyReset d s).port = [] :=
  ⟨rfl, rfl, rfl, rfl, rfl, rfl, rfl, rfl⟩

/-- Reset leaves the outputs, what the environment brings next, and the parameters (R6, R292). -/
theorem applyReset_frame (d : Bool) (s : State) :
    (applyReset d s).resp = s.resp ∧ (applyReset d s).tx = s.tx ∧ (applyReset d s).inp = s.inp ∧
      (applyReset d s).cfg = s.cfg :=
  ⟨rfl, rfl, rfl, rfl⟩

/-- A machine right after reset is not changed by a further reset with the same configuration input. -/
theorem applyReset_reset : applyReset true State.reset = State.reset := rfl

/-- Settles O44: `State.reset` is a state that the reset input makes, and the step that takes the input makes one with
the outputs and the parameters left. -/
theorem resetHoldsTheStatedValues : Obligations.ResetHoldsTheStatedValues := by
  constructor
  · have hregisters := applyReset_registers true State.reset
    rw [applyReset_reset] at hregisters
    exact ⟨rfl, hregisters⟩
  · intro s ts d more hs hinp
    refine ⟨_, step_of_reset hs hinp, ?_⟩
    obtain ⟨hrxn, hdrem, hdstate, hdead, hpend, htmr, hq, hport⟩ :=
      applyReset_registers d { s with sched := ts, inp := more }
    exact ⟨rfl, hrxn, hdrem, hdstate, hdead, hpend, htmr, hq, rfl, hport, rfl, rfl,
      applyReset_frame d { s with sched := ts, inp := more }⟩

end Sys2Proof.Machine
end
